-- ==== Sys2Proof/Word.lean ====
section
/-! DEFINITION. The word types of the block: 32-bit port words, bytes, and the bits of a frame (R11, R12, R14). -/

namespace Sys2Proof

/-- A host register, a command word, a pin request word, a duration or a pin fault code: 32 bits (R11). -/
abbrev Word := BitVec 32

/-- A data byte: 8 bits (R11). -/
abbrev Byte := BitVec 8

/-- A frame bit; `false` is 0 and `true` is 1 (R14). -/
abbrev Bit := Bool

/-- The frame: five bytes in arrival order, the fifth the checksum byte (R11, R34, R80). -/
abbrev Frame := Vector Byte 5

/-- The frame of five zero bytes. -/
def Frame.zero : Frame := Vector.replicate 5 0#8

end Sys2Proof
end

