-- ==== Sys2Proof/Config.lean ====
section
/-! DEFINITION. The parameters of the block (R8, R9, R10) and the one constant of the environment the spec leaves open. -/

namespace Sys2Proof

/-- The configuration record of R8. All times are microseconds. -/
structure Config where
  holdUs : Nat
  zeroMin : Nat
  zeroMax : Nat
  oneMin : Nat
  oneMax : Nat
  ackMin : Nat
  ackMax : Nat
  tAckStart : Nat
  tAckPhase : Nat
  tBitLow : Nat
  tBitHigh : Nat
  deriving DecidableEq, Repr

/-- The defaults of R8. -/
def Config.default : Config where
  holdUs := 20000
  zeroMin := 21
  zeroMax := 33
  oneMin := 65
  oneMax := 75
  ackMin := 75
  ackMax := 85
  tAckStart := 100
  tAckPhase := 100
  tBitLow := 100
  tBitHigh := 100

/-- `TIMEOUT_SLACK_US`: how late the environment may answer `Timeout` (R8, R130). The spec leaves it open, so it has
no value here; only the environment's duty in Safety.lean reads it. -/
opaque Config.timeoutSlackUs : Nat

end Sys2Proof
end

