-- ==== Sys2Proof/Syntax.lean ====
section
/-! DEFINITION. The instructions (one constructor for each row of spec/opcode_table.json), the answers of the
environment, and the accesses of the host: names only, no meaning. -/

namespace Sys2Proof

/-- A line level (R14). -/
inductive Level where
  | low
  | high
  deriving DecidableEq, Repr

/-- A pin direction (R14). -/
inductive Dir where
  | input
  | output
  deriving DecidableEq, Repr

/-- The two word formats of the opcode table: the command words of the host register `CMD` and the request words
of the pin port (R90). A word does not tell its own format; the port it stands on does. -/
inductive Format where
  | cmd
  | pinreq
  deriving DecidableEq, Repr

/-- The instructions. The first seven are the host's commands (R92), the last five the pin requests (R100).
Times are numbers of microseconds; that they fit their 24-bit fields is `Instr.wf`. -/
inductive Instr where
  | read
  | beginTxn
  | ackchk
  | sample
  | validate
  | waitl (lvl : Level) (maxw : Nat)
  | idle
  | setLevel (l : Level)
  | setDirection (dir : Dir)
  | readLevel
  | waitForLevel (l : Level) (t : Nat)
  | delay (t : Nat)
  deriving DecidableEq, Repr

/-- The port an instruction's word stands on (R90, R92, R100). -/
def Instr.format : Instr → Format
  | .read => .cmd
  | .beginTxn => .cmd
  | .ackchk => .cmd
  | .sample => .cmd
  | .validate => .cmd
  | .waitl _ _ => .cmd
  | .idle => .cmd
  | .setLevel _ => .pinreq
  | .setDirection _ => .pinreq
  | .readLevel => .pinreq
  | .waitForLevel _ _ => .pinreq
  | .delay _ => .pinreq

/-- What the environment may answer to a pin request (R14, R102, R122). -/
inductive Answer where
  | ok
  | okLevel (l : Level)
  | okDur (d : Word)
  | timeout
  | fault (e : Word)
  deriving DecidableEq, Repr

/-- The 35-bit answer as it stands on the pin port: three bits of `KIND` and 32 bits of `DATA` (R102, R106). -/
structure AnswerRec where
  kind : BitVec 3
  data : Word
  deriving DecidableEq, Repr

/-- One access of the host: the register index, the width in bytes, and the value for a write (R13, R72).
Only width 4 and indices 0 to 15 exist; the others can be written here so that refusing them can be said. -/
inductive HostAccess where
  | memRead (idx : Nat) (width : Nat)
  | memWrite (idx : Nat) (width : Nat) (v : Word)
  deriving DecidableEq, Repr

end Sys2Proof
end

