-- ==== Sys2Proof/WellFormed.lean ====
section
/-! DEFINITION. Which instructions can be encoded, and which configurations are legal. -/

namespace Sys2Proof

/-- A time fits the 24-bit `MAXW` or `TIME` field (R11, R91, R99). -/
abbrev fitsTime (t : Nat) : Prop := t ≤ 2 ^ 24 - 1

/-- An instruction is well-formed when its time field fits (R91, R94, R99). -/
def Instr.wf : Instr → Bool
  | .read => true
  | .beginTxn => true
  | .ackchk => true
  | .sample => true
  | .validate => true
  | .waitl _ maxw => decide (fitsTime maxw)
  | .idle => true
  | .setLevel _ => true
  | .setDirection _ => true
  | .readLevel => true
  | .waitForLevel _ t => decide (fitsTime t)
  | .delay t => decide (fitsTime t)

/-- A configuration is legal when all constraints of R8 and R9 hold. A step from an illegal one is refused. -/
def Config.legal (c : Config) : Bool :=
  decide (18000 ≤ c.holdUs ∧ fitsTime c.holdUs ∧
    c.zeroMin ≤ c.zeroMax ∧ c.zeroMax < c.oneMin ∧ c.oneMin ≤ c.oneMax ∧ c.ackMin ≤ c.ackMax ∧
    c.zeroMin ≤ 2 ^ 16 - 1 ∧ c.zeroMax ≤ 2 ^ 16 - 1 ∧ c.oneMin ≤ 2 ^ 16 - 1 ∧ c.oneMax ≤ 2 ^ 16 - 1 ∧
    c.ackMin ≤ 2 ^ 16 - 1 ∧ c.ackMax ≤ 2 ^ 16 - 1 ∧
    1 ≤ c.tAckStart ∧ c.tAckStart ≤ 2 ^ 16 - 1 ∧
    c.ackMax ≤ c.tAckPhase ∧ c.tAckPhase ≤ 2 ^ 16 - 1 ∧
    1 ≤ c.tBitLow ∧ c.tBitLow ≤ 2 ^ 16 - 1 ∧
    c.oneMax ≤ c.tBitHigh ∧ c.tBitHigh ≤ 2 ^ 16 - 1)

end Sys2Proof
end

