-- ==== Sys2Proof/Decode.lean ====
section
/-! DEFINITION. Decoding of command words (R93, R98), pin request words (R99, R100) and answer records (R102), each
total and rejecting by name; and the encoders. -/

namespace Sys2Proof

/-! ## Fields of the words -/

/-- A field of a word: the bits of `x` at position `pos` and up, and 0 elsewhere (R12). -/
def field {n : Nat} (pos : Nat) (x : BitVec n) : Word := x.setWidth 32 <<< pos

/-- A one-bit field read as a level (R95, R99): 0 is Low and 1 is High. -/
def levelOfBit (b : Bool) : Level := if b then .high else .low

/-- The encoding of a level (R14). -/
def Level.bit : Level → Bool
  | .low => false
  | .high => true

/-- A one-bit field read as a direction (R99): 0 is Input and 1 is Output. -/
def dirOfBit (b : Bool) : Dir := if b then .output else .input

/-- The encoding of a direction (R14). -/
def Dir.bit : Dir → Bool
  | .input => false
  | .output => true

/-- `OP`, bits [3:0] of a command word (R91). -/
def cmdOp (v : Word) : BitVec 4 := v.extractLsb' 0 4

/-- `LVL`, bit [4] of a command word (R91, R95). -/
def cmdLvl (v : Word) : Level := levelOfBit (v.getLsbD 4)

/-- `RSV`, bits [7:5] of a command word (R91). -/
def cmdRsv (v : Word) : BitVec 3 := v.extractLsb' 5 3

/-- `MAXW`, bits [31:8] of a command word (R91, R94). -/
def cmdMaxw (v : Word) : BitVec 24 := v.extractLsb' 8 24

/-- `POP`, bits [2:0] of a pin request word (R99). -/
def pinPop (v : Word) : BitVec 3 := v.extractLsb' 0 3

/-- `ARG`, bit [3] of a pin request word (R99). -/
def pinArg (v : Word) : Bool := v.getLsbD 3

/-- Bits [7:4] of a pin request word, always 0 (R99). -/
def pinZero (v : Word) : BitVec 4 := v.extractLsb' 4 4

/-- `TIME`, bits [31:8] of a pin request word (R99). -/
def pinTime (v : Word) : BitVec 24 := v.extractLsb' 8 24

/-! ## Decoders -/

/-- Why a word or a record is rejected. The spec has one verdict for command words (R96, R98); the names are the
model's (log entry 21). -/
inductive DecodeReject where
  /-- `OP` is 0x0 or 0x8 to 0xF (R92, R97). -/
  | reservedOp
  /-- A bit of `LVL`, `RSV` or `MAXW` is set where it must be 0 (R91, R93). -/
  | reservedCommandBits
  /-- `POP` is 5 to 7 (R100). -/
  | reservedPop
  /-- A bit of `ARG`, [7:4] or `TIME` is set where it must be 0 (R99, R100). -/
  | reservedRequestBits
  /-- `KIND` is 5 to 7 (R102). -/
  | reservedKind
  /-- `DATA` has a bit set that its kind does not give (R102). -/
  | reservedData
  deriving DecidableEq, Repr

/-- A command without operands is legal only when bits [31:4] are 0 (R93). -/
def bareCommand (v : Word) (i : Instr) : Except DecodeReject Instr :=
  if v.extractLsb' 4 28 = 0#28 then .ok i else .error .reservedCommandBits

/-- `decode_cmd` (R98). -/
def decodeCmd (v : Word) : Except DecodeReject Instr :=
  if cmdOp v = 0x1#4 then bareCommand v .read
  else if cmdOp v = 0x2#4 then bareCommand v .beginTxn
  else if cmdOp v = 0x3#4 then bareCommand v .ackchk
  else if cmdOp v = 0x4#4 then bareCommand v .sample
  else if cmdOp v = 0x5#4 then bareCommand v .validate
  else if cmdOp v = 0x6#4 then
    if cmdRsv v = 0#3 then .ok (.waitl (cmdLvl v) (cmdMaxw v).toNat) else .error .reservedCommandBits
  else if cmdOp v = 0x7#4 then bareCommand v .idle
  else .error .reservedOp

/-- The request a pin request word stands for (R99, R100). -/
def decodePin (v : Word) : Except DecodeReject Instr :=
  if pinZero v ≠ 0#4 then .error .reservedRequestBits
  else if pinPop v = 0#3 then
    if pinTime v = 0#24 then .ok (.setLevel (levelOfBit (pinArg v))) else .error .reservedRequestBits
  else if pinPop v = 1#3 then
    if pinTime v = 0#24 then .ok (.setDirection (dirOfBit (pinArg v))) else .error .reservedRequestBits
  else if pinPop v = 2#3 then
    if pinTime v = 0#24 ∧ pinArg v = false then .ok .readLevel else .error .reservedRequestBits
  else if pinPop v = 3#3 then .ok (.waitForLevel (levelOfBit (pinArg v)) (pinTime v).toNat)
  else if pinPop v = 4#3 then
    if pinArg v = false then .ok (.delay (pinTime v).toNat) else .error .reservedRequestBits
  else .error .reservedPop

/-- The decoder of a port's words (R90, R106): the port gives the format. -/
def decode : Format → Word → Except DecodeReject Instr
  | .cmd, v => decodeCmd v
  | .pinreq, v => decodePin v

/-- The answer an answer record stands for (R102): `DATA` is 0 for `Ok` and `Timeout`, and holds one bit for `OkLevel`. -/
def decodeAnswer (r : AnswerRec) : Except DecodeReject Answer :=
  if r.kind = 0#3 then if r.data = 0#32 then .ok .ok else .error .reservedData
  else if r.kind = 1#3 then
    if r.data.extractLsb' 1 31 = 0#31 then .ok (.okLevel (levelOfBit (r.data.getLsbD 0))) else .error .reservedData
  else if r.kind = 2#3 then .ok (.okDur r.data)
  else if r.kind = 3#3 then if r.data = 0#32 then .ok .timeout else .error .reservedData
  else if r.kind = 4#3 then .ok (.fault r.data)
  else .error .reservedKind

/-! ## Encoders -/

/-- A command word from its fields (R91). -/
def cmdWord (maxw : BitVec 24) (lvl : Level) (op : BitVec 4) : Word :=
  field 8 maxw ||| field 4 (BitVec.ofBool lvl.bit) ||| field 0 op

/-- A pin request word from its fields (R99). -/
def pinWord (time : BitVec 24) (arg : Bool) (pop : BitVec 3) : Word :=
  field 8 time ||| field 3 (BitVec.ofBool arg) ||| field 0 pop

/-- The word of an instruction, on the port of its format (R92, R93, R99 to R101). -/
def encode : Instr → Word
  | .read => cmdWord 0#24 .low 0x1#4
  | .beginTxn => cmdWord 0#24 .low 0x2#4
  | .ackchk => cmdWord 0#24 .low 0x3#4
  | .sample => cmdWord 0#24 .low 0x4#4
  | .validate => cmdWord 0#24 .low 0x5#4
  | .waitl lvl maxw => cmdWord (BitVec.ofNat 24 maxw) lvl 0x6#4
  | .idle => cmdWord 0#24 .low 0x7#4
  | .setLevel l => pinWord 0#24 l.bit 0#3
  | .setDirection d => pinWord 0#24 d.bit 1#3
  | .readLevel => pinWord 0#24 false 2#3
  | .waitForLevel l t => pinWord (BitVec.ofNat 24 t) l.bit 3#3
  | .delay t => pinWord (BitVec.ofNat 24 t) false 4#3

/-- The record of an answer (R102). -/
def encodeAnswer : Answer → AnswerRec
  | .ok => ⟨0#3, 0#32⟩
  | .okLevel l => ⟨1#3, field 0 (BitVec.ofBool l.bit)⟩
  | .okDur d => ⟨2#3, d⟩
  | .timeout => ⟨3#3, 0#32⟩
  | .fault e => ⟨4#3, e⟩

/-! ## The opcode table (R93, R100) -/

/-- One row of the table: a word belongs to it when `(v & mask) = value`. -/
structure OpRow where
  value : Word
  mask : Word
  deriving DecidableEq, Repr

/-- A word belongs to a row (R93). -/
def OpRow.accepts (r : OpRow) (v : Word) : Bool := (v &&& r.mask) == r.value

/-- The seven rows of the command format (R93). -/
def cmdTable : List OpRow :=
  [⟨0x00000001#32, 0xFFFFFFFF#32⟩, ⟨0x00000002#32, 0xFFFFFFFF#32⟩, ⟨0x00000003#32, 0xFFFFFFFF#32⟩,
   ⟨0x00000004#32, 0xFFFFFFFF#32⟩, ⟨0x00000005#32, 0xFFFFFFFF#32⟩, ⟨0x00000006#32, 0x000000EF#32⟩,
   ⟨0x00000007#32, 0xFFFFFFFF#32⟩]

/-- The five rows of the pin request format (R100). -/
def pinTable : List OpRow :=
  [⟨0x00000000#32, 0xFFFFFFF7#32⟩, ⟨0x00000001#32, 0xFFFFFFF7#32⟩, ⟨0x00000002#32, 0xFFFFFFFF#32⟩,
   ⟨0x00000003#32, 0x000000F7#32⟩, ⟨0x00000004#32, 0x000000FF#32⟩]

/-- The rows of a format. -/
def tableOf : Format → List OpRow
  | .cmd => cmdTable
  | .pinreq => pinTable

/-! ## Words as spec/opcode_table.json numbers them -/

/-- Which port a word of the opcode table is taken to stand on. The table gives `WAIT_FOR_LEVEL` and `DELAY` eight
fixed bits and the other rows of those low bits 32, so an eight-bit row with their bits is theirs; any other word is a
command word if it is a legal one, and a pin request word otherwise (DESIGN CHOICE, log entry 1). -/
def tableFormat (nbits : Nat) (v : Word) : Format :=
  if nbits ≤ 8 ∧ (pinTable.drop 3).any (fun r => r.accepts v) then .pinreq
  else if cmdTable.any (fun r => r.accepts v) then .cmd
  else .pinreq

/-- The instruction the decoder reads from a word of the opcode table. -/
def decodeTableWord (nbits w : Nat) : Option Instr :=
  if w < 2 ^ 32 ∧ nbits ≤ 32 then
    (decode (tableFormat nbits (BitVec.ofNat 32 w)) (BitVec.ofNat 32 w)).toOption
  else none

end Sys2Proof
end

