-- ==== Sys2Proof/Machine/State.lean ====
section
/-! DEFINITION. The state of the machine as plain data (R30 to R49), the moves of its agents (R5, R82), the reasons a
step can stop, and the state after reset (R54). -/

namespace Sys2Proof.Machine

/-- The sequencer's position, the block's only program counter: the phases of R104. Code 15 is never used. -/
inductive Phase where
  | idle
  | bDirOut
  | bLow
  | bHold
  | bHigh
  | bDirIn
  | ackStart
  | ackLow
  | ackHigh
  | bitLow
  | bitHigh
  | check
  | waitL
  | idleDir
  | idleLvl
  deriving DecidableEq, Repr

/-- The contents of `STATUS.ERR` (R103). Codes 7 to 15 are never written. -/
inductive ErrKind where
  | none
  | ackTimeout
  | ackPulseOutOfRange
  | levelTimeout
  | bitOutOfRange
  | checksumMismatch
  | pinFault
  deriving DecidableEq, Repr

/-- The six errors (R210) with what the taxonomy says each one carries. -/
inductive ProtocolError where
  | ackTimeout
  | ackPulseOutOfRange
  | levelTimeout
  | bitOutOfRange (index : Fin 40)
  | checksumMismatch (computed received : Byte)
  | pinFault (e : Word)
  deriving DecidableEq, Repr

/-- The Measurement register (R35). -/
structure Measurement where
  humidityInt : Byte
  humidityFrac : Byte
  temperatureInt : Byte
  temperatureFrac : Byte
  deriving DecidableEq, Repr

/-- The decoder's state: exactly the fields of R30 (their types: log entry 6). -/
structure Decoder where
  phase : Phase
  bitidx : BitVec 6
  op : BitVec 4
  wlvl : Level
  wmax : BitVec 24
  raw : Frame
  meas : Measurement
  mvalid : Bool
  busy : Bool
  done : Bool
  ok : Bool
  err : ErrKind
  eidx : BitVec 6
  ecomp : Byte
  erecv : Byte
  ephase : Phase
  edur : Word
  pinerr : Word
  dur : Word
  ill : Bool
  ovr : Bool
  pdir : Dir
  plvl : Level
  deriving DecidableEq, Repr

/-- One move of one agent, in the total order of R82. -/
inductive Move where
  /-- The host makes one register access (R77). -/
  | host (a : HostAccess)
  /-- The environment answers the outstanding pin request (R121). -/
  | answer (r : AnswerRec)
  /-- The decoder takes its internal step, if one is enabled (R196(3)). -/
  | internal
  /-- The reset input acts (R240). -/
  | reset
  deriving DecidableEq, Repr

/-- The whole state: the decoder's record, the two ports, the constant configuration and the moves still to come. -/
structure State where
  /-- The decoder's own state (R30). -/
  dec : Decoder
  /-- The configuration, a constant of the step (R8, R10; log entry 2). -/
  cfg : Config
  /-- The request word outstanding on the pin port (R83, R104; log entry 4). -/
  pinReq : Option Word
  /-- The answer on the pin port, inside a pin step (R121; log entry 4). -/
  pinAns : Option AnswerRec
  /-- The value the last host read returned (R74; log entry 5). -/
  rdata : Word
  /-- The moves still to come, in order (R82; log entry 3). -/
  script : List Move
  deriving DecidableEq, Repr

/-- The machine never stops with a fault: the block has no trap (60_exceptions.md), and its errors are outcomes that
the machine goes on from (R210). So no one raises a fault and the type has no constructor. -/
inductive Fault where
  deriving DecidableEq, Repr

/-- Why a step is refused. -/
inductive Refusal where
  /-- Raised by an arm of `exec` for an instruction without a meaning; no arm does. Safe. -/
  | notModelled (mnemonic : String)
  /-- Raised by every step from an illegal configuration: "A model refuses such a configuration" (R9). Safe. -/
  | illegalConfiguration
  /-- Raised by a host access whose width is not 4 bytes: "a model refuses it" (R72). Safe. -/
  | accessWidth (width : Nat)
  /-- Raised by a host access whose index is not in 0..15: "a model refuses such an access" (R73). Safe. -/
  | accessIndex (idx : Nat)
  /-- Raised by a pin step whose answer record is reserved: "never answered" (R102). Safe. -/
  | reservedAnswer
  /-- Raised by a pin step whose answer is outside the request's domain: "not a move of the environment" (R122). Safe. -/
  | answerOutsideDomain
  /-- Raised by a pin step whose outstanding word encodes no request: "never issued" (R100). Safe. -/
  | reservedRequest
  deriving DecidableEq, Repr

/-- The result of a step. -/
abbrev Result := Host.Outcome State Fault Refusal

/-- The decoder's record after reset: every field is 0 (R54). -/
def Decoder.reset : Decoder where
  phase := .idle
  bitidx := 0#6
  op := 0#4
  wlvl := .low
  wmax := 0#24
  raw := Frame.zero
  meas := ⟨0#8, 0#8, 0#8, 0#8⟩
  mvalid := false
  busy := false
  done := false
  ok := false
  err := .none
  eidx := 0#6
  ecomp := 0#8
  erecv := 0#8
  ephase := .idle
  edur := 0#32
  pinerr := 0#32
  dur := 0#32
  ill := false
  ovr := false
  pdir := .input
  plvl := .low

/-- The machine right after reset (R54, R241), with the default configuration (log entry 2), nothing outstanding on
the pin port (log entry 4), no read made (log entry 5) and no move placed (log entry 3). -/
def State.reset : State where
  dec := Decoder.reset
  cfg := Config.default
  pinReq := none
  pinAns := none
  rdata := 0#32
  script := []

end Sys2Proof.Machine
end

