-- ==== Sys2Proof/Machine/Operands.lean ====
section
/-! DEFINITION. Operand forms: the request of each phase (R104), the durations' checks (R147, R161), the frame's bits
and byte lanes (R78 to R80, R162), the checksum (R181) and the answer domains (R122). -/

namespace Sys2Proof.Machine

/-- Operation codes of the commands (R92), as `op` latches them (R33). -/
def opRead : BitVec 4 := 0x1#4

/-- The request issued in a phase (R104); `idle` and `check` issue none. -/
def requestOf (cfg : Config) (d : Decoder) : Option Instr :=
  match d.phase with
  | .idle => none
  | .bDirOut => some (.setDirection .output)
  | .bLow => some (.setLevel .low)
  | .bHold => some (.delay cfg.holdUs)
  | .bHigh => some (.setLevel .high)
  | .bDirIn => some (.setDirection .input)
  | .ackStart => some (.waitForLevel .low cfg.tAckStart)
  | .ackLow => some (.waitForLevel .high cfg.tAckPhase)
  | .ackHigh => some (.waitForLevel .low cfg.tAckPhase)
  | .bitLow => some (.waitForLevel .high cfg.tBitLow)
  | .bitHigh => some (.waitForLevel .low cfg.tBitHigh)
  | .check => none
  | .waitL => some (.waitForLevel d.wlvl d.wmax.toNat)
  | .idleDir => some (.setDirection .output)
  | .idleLvl => some (.setLevel .high)

/-- The answers the environment may give to a request (R122). A command is no request and has none. -/
def inDomain : Instr → Answer → Bool
  | .setLevel _, .ok => true
  | .setLevel _, .fault _ => true
  | .setDirection _, .ok => true
  | .setDirection _, .fault _ => true
  | .readLevel, .okLevel _ => true
  | .readLevel, .fault _ => true
  | .waitForLevel _ _, .okDur _ => true
  | .waitForLevel _ _, .timeout => true
  | .waitForLevel _ _, .fault _ => true
  | .delay _, .ok => true
  | .delay _, .fault _ => true
  | _, _ => false

/-- `ack_ok` (R147): the acknowledgment band, inclusive at both ends, unsigned. -/
def ackOk (cfg : Config) (d : Word) : Bool :=
  decide (cfg.ackMin ≤ d.toNat) && decide (d.toNat ≤ cfg.ackMax)

/-- `classify` (R161): the zero band, then the one band, inclusive at both ends, unsigned. -/
def classify (cfg : Config) (d : Word) : Option Bit :=
  if cfg.zeroMin ≤ d.toNat ∧ d.toNat ≤ cfg.zeroMax then some false
  else if cfg.oneMin ≤ d.toNat ∧ d.toNat ≤ cfg.oneMax then some true
  else none

/-- `checksum` (R181): a 16-bit sum of the four bytes, masked to its low byte. -/
def checksum (b0 b1 b2 b3 : Byte) : Byte :=
  (b0.setWidth 16 + b1.setWidth 16 + b2.setWidth 16 + b3.setWidth 16).extractLsb' 0 8

/-- The checksum of the four data bytes of a frame (R180). -/
def frameSum (f : Frame) : Byte := checksum f[0] f[1] f[2] f[3]

/-- `{b[6:0], c}`: one accepted bit shifted into the low end of a byte (R162). -/
def shiftByte (b : Byte) (c : Bit) : Byte := b <<< 1 ||| (BitVec.ofBool c).setWidth 8

/-- `RAW.b[i/8] <- {RAW.b[i/8][6:0], c}` (R160, R197). An index of 40 or more names no byte, and no reachable state
has one here (log entry 19). -/
def shiftIn (f : Frame) (i : Nat) (c : Bit) : Frame :=
  f.setIfInBounds (i / 8) (shiftByte (f.getD (i / 8) 0#8) c)

/-- Bit i of a frame, bit 0 the first on the line (R78, R134). -/
def frameBit (f : Frame) (i : Nat) : Bit := (f.getD (i / 8) 0#8).getLsbD (7 - i % 8)

/-- Four bytes as a word, byte k in bits [8k+7:8k] (R47, R79). -/
def laneWord (b0 b1 b2 b3 : Byte) : Word := field 24 b3 ||| field 16 b2 ||| field 8 b1 ||| field 0 b0

/-- Byte k of a word in the lane order of R79. -/
def lane (v : Word) (k : Nat) : Byte := v.extractLsb' (8 * k) 8

/-- The Measurement of a frame's four data bytes (R80, R182). -/
def measureOf (f : Frame) : Measurement := ⟨f[0], f[1], f[2], f[3]⟩

end Sys2Proof.Machine
end

