-- ==== Sys2Proof/Machine/Flags.lean ====
section
/-! DEFINITION. The codes of phases and errors (R103, R104) and the host's views of the state: `STATUS` (R37),
`ERRINFO` (R43), the data and configuration registers (R44 to R48, R79), and the whole register map (R71). -/

namespace Sys2Proof.Machine

/-- The phase codes (R104). -/
def Phase.code : Phase → BitVec 4
  | .idle => 0#4
  | .bDirOut => 1#4
  | .bLow => 2#4
  | .bHold => 3#4
  | .bHigh => 4#4
  | .bDirIn => 5#4
  | .ackStart => 6#4
  | .ackLow => 7#4
  | .ackHigh => 8#4
  | .bitLow => 9#4
  | .bitHigh => 10#4
  | .check => 11#4
  | .waitL => 12#4
  | .idleDir => 13#4
  | .idleLvl => 14#4

/-- The error kind codes (R103). -/
def ErrKind.code : ErrKind → BitVec 4
  | .none => 0#4
  | .ackTimeout => 1#4
  | .ackPulseOutOfRange => 2#4
  | .levelTimeout => 3#4
  | .bitOutOfRange => 4#4
  | .checksumMismatch => 5#4
  | .pinFault => 6#4

/-- The kind of an error, as `err` records it (R103, R212). -/
def ProtocolError.kind : ProtocolError → ErrKind
  | .ackTimeout => .ackTimeout
  | .ackPulseOutOfRange => .ackPulseOutOfRange
  | .levelTimeout => .levelTimeout
  | .bitOutOfRange _ => .bitOutOfRange
  | .checksumMismatch _ _ => .checksumMismatch
  | .pinFault _ => .pinFault

/-- `EIDX` of an error raised in a phase at a bit index: the failing index for `BitOutOfRange`; the current one for
`LevelTimeout` and `PinFault` in the sampling phases (R215, R216, R218); 0 otherwise. -/
def ProtocolError.index (p : Phase) (bitidx : BitVec 6) : ProtocolError → BitVec 6
  | .ackTimeout => 0#6
  | .ackPulseOutOfRange => 0#6
  | .levelTimeout => if p = .bitLow ∨ p = .bitHigh then bitidx else 0#6
  | .bitOutOfRange i => BitVec.ofNat 6 i.val
  | .checksumMismatch _ _ => 0#6
  | .pinFault _ => if p = .bitLow ∨ p = .bitHigh then bitidx else 0#6

/-- `ECOMP` of an error (R217). -/
def ProtocolError.computed : ProtocolError → Byte
  | .checksumMismatch c _ => c
  | _ => 0#8

/-- `ERECV` of an error (R217). -/
def ProtocolError.received : ProtocolError → Byte
  | .checksumMismatch _ r => r
  | _ => 0#8

/-- `PINERR` of an error (R218). -/
def ProtocolError.pinCode : ProtocolError → Word
  | .pinFault e => e
  | _ => 0#32

/-- `STATUS` (R37). -/
def statusWord (d : Decoder) : Word :=
  field 22 d.op ||| field 21 (BitVec.ofBool d.plvl.bit) ||| field 20 (BitVec.ofBool d.pdir.bit) |||
  field 19 (BitVec.ofBool d.ovr) ||| field 18 (BitVec.ofBool d.ill) ||| field 12 d.bitidx |||
  field 8 d.phase.code ||| field 4 d.err.code ||| field 3 (BitVec.ofBool d.mvalid) |||
  field 2 (BitVec.ofBool d.ok) ||| field 1 (BitVec.ofBool d.done) ||| field 0 (BitVec.ofBool d.busy)

/-- `ERRINFO` (R43). -/
def errinfoWord (d : Decoder) : Word :=
  field 24 d.ephase.code ||| field 16 d.erecv ||| field 8 d.ecomp ||| field 0 d.eidx

/-- Two 16-bit parameters as a configuration register (R48). -/
def pairWord (low high : Nat) : Word :=
  field 16 (BitVec.ofNat 16 high) ||| field 0 (BitVec.ofNat 16 low)

/-- The value a host read of a register returns (R71, R74). `CMD` and index 15 read 0 (R49, R73). -/
def readRegister (cfg : Config) (d : Decoder) (idx : Nat) : Word :=
  match idx with
  | 1 => statusWord d
  | 2 => errinfoWord d
  | 3 => d.edur
  | 4 => d.pinerr
  | 5 => d.dur
  | 6 => laneWord d.raw[0] d.raw[1] d.raw[2] d.raw[3]
  | 7 => field 0 d.raw[4]
  | 8 => laneWord d.meas.humidityInt d.meas.humidityFrac d.meas.temperatureInt d.meas.temperatureFrac
  | 9 => field 0 (BitVec.ofNat 24 cfg.holdUs)
  | 10 => pairWord cfg.zeroMin cfg.zeroMax
  | 11 => pairWord cfg.oneMin cfg.oneMax
  | 12 => pairWord cfg.ackMin cfg.ackMax
  | 13 => pairWord cfg.tAckStart cfg.tAckPhase
  | 14 => pairWord cfg.tBitLow cfg.tBitHigh
  | _ => 0#32

/-- The optional output level of R224, equal to `STATUS.DONE`. -/
def doneLine (d : Decoder) : Bool := d.done

end Sys2Proof.Machine
end

