-- ==== Sys2Proof/Machine/Ops.lean ====
section
/-! DEFINITION. The shared operations: acceptance (R194), completion with success (R211) and with an error (R212), the
pin exchange (R121, R122, R128), and reset (R240). Raising an error is this block's only exception entry; there is no
return from it (R223), since the next acceptance clears the record. -/

namespace Sys2Proof.Machine

/-! ## Operations on the decoder's record -/

/-- `finish_ok()` (R211). -/
def Decoder.finishOk (d : Decoder) : Decoder :=
  { d with phase := .idle, busy := false, done := true, ok := true, err := .none }

/-- `raise E` (R212). `edur` is the duration the error records (R44; 0 where it has none). The diagnostic fields that
do not belong to E are written 0, which they are from acceptance (log entry 11). -/
def Decoder.raise (e : ProtocolError) (edur : Word) (d : Decoder) : Decoder :=
  { d with
    ephase := d.phase
    err := e.kind
    eidx := e.index d.phase d.bitidx
    ecomp := e.computed
    erecv := e.received
    edur := edur
    pinerr := e.pinCode
    phase := .idle
    busy := false
    done := true
    ok := false }

/-- The latching and clearing of command acceptance (R194): the fields of the accepted word, a fresh result record,
and the command's first phase. -/
def Decoder.accept (v : Word) (first : Phase) (d : Decoder) : Decoder :=
  { d with
    op := cmdOp v
    wlvl := cmdLvl v
    wmax := cmdMaxw v
    busy := true
    done := false
    ok := false
    err := .none
    eidx := 0#6
    ecomp := 0#8
    erecv := 0#8
    ephase := .idle
    edur := 0#32
    pinerr := 0#32
    bitidx := 0#6
    phase := first }

/-- The prologue of `sample_bits()` (R160): the five bytes and the bit index are cleared. -/
def Decoder.clearRaw (d : Decoder) : Decoder :=
  { d with raw := Frame.zero, bitidx := 0#6 }

/-- `phase <- P` (R13, R31). -/
def Decoder.goto (p : Phase) (d : Decoder) : Decoder := { d with phase := p }

/-- `plvl <- l`: the last level request answered `Ok` (R42, R123). -/
def Decoder.setPlvl (l : Level) (d : Decoder) : Decoder := { d with plvl := l }

/-- `pdir <- dir`: the last direction request answered `Ok` (R42, R125). -/
def Decoder.setPdir (dir : Dir) (d : Decoder) : Decoder := { d with pdir := dir }

/-- `dur <- d`: the last duration answered (R46, R124). -/
def Decoder.setDur (w : Word) (d : Decoder) : Decoder := { d with dur := w }

/-- A host write hit the busy lock: sticky `OVR` (R41, R76). -/
def Decoder.markOvr (d : Decoder) : Decoder := { d with ovr := true }

/-- An illegal command word was written: sticky `ILL` (R41, R96). -/
def Decoder.markIll (d : Decoder) : Decoder := { d with ill := true }

/-- `raw` loaded by the host (R75). -/
def Decoder.loadRaw (f : Frame) (d : Decoder) : Decoder := { d with raw := f }

/-! ## Operations on the state -/

/-- The end of every step of the sequencer: the decoder's record is written, the answer is consumed, and the request
of the phase reached is outstanding (R104, R194, R196). -/
def State.settle (s : State) (d : Decoder) : State :=
  { s with dec := d, pinAns := none, pinReq := (requestOf s.cfg d).map encode }

/-- A command word (R194): discarded with `OVR` while busy (R76), accepted otherwise. -/
def command (s : State) (accepted : Decoder) : Result :=
  if s.dec.busy then .next { s with dec := s.dec.markOvr } else .next (s.settle accepted)

/-- `PinCall(req)` (R121, R122, R128): the step takes the environment's answer to `req`. Without an answer the block
takes no step of its own (R121, R132). A `Fault` raises `PinFault` (R218); any other answer of the request's domain
goes to the request's own rule, and one outside it is refused (log entry 8). -/
def pinCall (req : Instr) (s : State) (onAnswer : Answer → Decoder → Decoder) : Result :=
  match s.pinAns with
  | none => .next s
  | some r =>
    match decodeAnswer r with
    | .error _ => .refused .reservedAnswer
    | .ok a =>
      if inDomain req a then
        match a with
        | .fault e => .next (s.settle (s.dec.raise (.pinFault e) 0#32))
        | a => .next (s.settle (onAnswer a s.dec))
      else .refused .answerOutsideDomain

/-- The command's pseudocode goes on after a request only where the request is the current phase's own (R104, R196);
another request has its own effect and nothing more (log entry 7). -/
def whenOwn (cfg : Config) (req : Instr) (d : Decoder) (goOn : Decoder → Decoder) : Decoder :=
  if requestOf cfg d = some req then goOn d else d

/-- Block reset (R240 to R242): every field of the decoder's record takes its value of R54, and an outstanding
request is abandoned. The configuration is fixed (R10; log entry 16). -/
def resetBlock (s : State) : State :=
  { s with dec := Decoder.reset, pinReq := none, pinAns := none }

end Sys2Proof.Machine
end

