-- ==== Sys2Proof/Machine/Sequencer.lean ====
section
/-! DEFINITION. How a command goes on after each answer: the next-phase table (R197), procedure by procedure, and the
time-out errors (R213, R215). -/

namespace Sys2Proof.Machine

/-- After `Ok` (R141, R193, R197). In the phases that issue no such request nothing follows. -/
def Decoder.afterOk (d : Decoder) : Decoder :=
  match d.phase with
  | .bDirOut => d.goto .bLow
  | .bLow => d.goto .bHold
  | .bHold => d.goto .bHigh
  | .bHigh => d.goto .bDirIn
  | .bDirIn => d.goto .ackStart
  | .idleDir => d.goto .idleLvl
  | .idleLvl => d.finishOk
  | _ => d

/-- The end of `begin_transaction()` (R141, R197): `READ` goes on to `validate_ack()`, `BEGIN` completes (any other
`op`: log entry 12). -/
def Decoder.afterAckStart (d : Decoder) : Decoder :=
  if d.op = opRead then d.goto .ackLow else d.finishOk

/-- The low phase of the acknowledgment (R145, R197). -/
def Decoder.afterAckLow (cfg : Config) (dur : Word) (d : Decoder) : Decoder :=
  if ackOk cfg dur then d.goto .ackHigh else d.raise .ackPulseOutOfRange dur

/-- The high phase of the acknowledgment (R145, R197): `READ` goes on to `sample_bits()`, `ACKCHK` completes. -/
def Decoder.afterAckHigh (cfg : Config) (dur : Word) (d : Decoder) : Decoder :=
  if ackOk cfg dur then
    if d.op = opRead then d.clearRaw.goto .bitLow else d.finishOk
  else d.raise .ackPulseOutOfRange dur

/-- The bit is shifted into the byte of the current index, and the index moves on (R162, R197). -/
def Decoder.shiftRaw (c : Bit) (next : BitVec 6) (d : Decoder) : Decoder :=
  { d with raw := shiftIn d.raw d.bitidx.toNat c, bitidx := next }

/-- An accepted bit (R160, R162, R197): it is shifted in; the loop goes on, or after bit 39 `READ` goes on to the
check and `SAMPLE` completes. -/
def Decoder.acceptBit (c : Bit) (d : Decoder) : Decoder :=
  if d.bitidx.toNat < 39 then (d.shiftRaw c (d.bitidx + 1#6)).goto .bitLow
  else if d.op = opRead then (d.shiftRaw c 40#6).goto .check
  else (d.shiftRaw c 40#6).finishOk

/-- The index of the bit being sampled, as `BitOutOfRange` carries it (R32, R210). An index of 40 or more, which no
reachable state has in a sampling phase, is taken modulo 40 (log entry 19). -/
def Decoder.frameIndex (d : Decoder) : Fin 40 := Fin.ofNat 40 d.bitidx.toNat

/-- The high phase of a bit (R160, R161, R197). -/
def Decoder.afterBitHigh (cfg : Config) (dur : Word) (d : Decoder) : Decoder :=
  match classify cfg dur with
  | none => d.raise (.bitOutOfRange d.frameIndex) dur
  | some c => d.acceptBit c

/-- After `OkDur(d)` in each phase (R197). -/
def Decoder.afterOkDur (cfg : Config) (dur : Word) (d : Decoder) : Decoder :=
  match d.phase with
  | .ackStart => d.afterAckStart
  | .ackLow => d.afterAckLow cfg dur
  | .ackHigh => d.afterAckHigh cfg dur
  | .bitLow => d.goto .bitHigh
  | .bitHigh => d.afterBitHigh cfg dur
  | .waitL => d.finishOk
  | _ => d

/-- After `Timeout` in each phase: `AckTimeout` (R213) or `LevelTimeout` (R215), with the bound that elapsed. -/
def Decoder.afterTimeout (cfg : Config) (d : Decoder) : Decoder :=
  match d.phase with
  | .ackStart => d.raise .ackTimeout (BitVec.ofNat 32 cfg.tAckStart)
  | .ackLow => d.raise .ackTimeout (BitVec.ofNat 32 cfg.tAckPhase)
  | .ackHigh => d.raise .ackTimeout (BitVec.ofNat 32 cfg.tAckPhase)
  | .bitLow => d.raise .levelTimeout (BitVec.ofNat 32 cfg.tBitLow)
  | .bitHigh => d.raise .levelTimeout (BitVec.ofNat 32 cfg.tBitHigh)
  | .waitL => d.raise .levelTimeout (d.wmax.setWidth 32)
  | _ => d

end Sys2Proof.Machine
end

