-- ==== Sys2Proof/Machine/Checksum.lean ====
section
/-! DEFINITION. The checksum family (43_checksum.md): `VALIDATE`, and the check step it shares with `READ`. -/

namespace Sys2Proof.Machine

/-- `VALIDATE` (R180, R194). -/
def execValidate (s : State) : Result :=
  command s (s.dec.accept (encode .validate) .check)

/-- The Measurement is built from the four data bytes (R35, R182). -/
def Decoder.buildMeas (d : Decoder) : Decoder := { d with meas := measureOf d.raw, mvalid := true }

/-- `validate()` and completion (R180, R182, R196(3), R217): the Measurement is built only from a frame whose fifth
byte is the checksum of the first four. -/
def Decoder.validate (d : Decoder) : Decoder :=
  if frameSum d.raw = d.raw[4] then
    d.buildMeas.finishOk
  else d.raise (.checksumMismatch (frameSum d.raw) d.raw[4]) 0#32

/-- The decoder's internal step (R196): the check step in phase `CHECK`, and no step in any other phase. -/
def internalStep (s : State) : State :=
  if s.dec.phase = .check then s.settle s.dec.validate else s

end Sys2Proof.Machine
end

