-- ==== Sys2Proof/Machine/Control.lean ====
section
/-! DEFINITION. The read and control family (44_read_and_control.md): `READ` and `IDLE`. -/

namespace Sys2Proof.Machine

/-- `READ` (R190, R194). -/
def execRead (s : State) : Result :=
  command s (s.dec.accept (encode .read) .bDirOut)

/-- `IDLE` (R193, R194). -/
def execIdle (s : State) : Result :=
  command s (s.dec.accept (encode .idle) .idleDir)

end Sys2Proof.Machine
end

