-- ==== Sys2Proof/Machine/Handshake.lean ====
section
/-! DEFINITION. The handshake family (41_handshake.md): `BEGIN`, `WAITL`, `ACKCHK`. A command's meaning is its acceptance
step; each later step of it is the meaning of the pin request then outstanding (R194, R196). -/

namespace Sys2Proof.Machine

/-- `BEGIN` (R140, R194). -/
def execBegin (s : State) : Result :=
  command s (s.dec.accept (encode .beginTxn) .bDirOut)

/-- `WAITL` (R143, R194): the level and the bound are latched. -/
def execWaitl (lvl : Level) (maxw : Nat) (s : State) : Result :=
  command s (s.dec.accept (encode (.waitl lvl maxw)) .waitL)

/-- `ACKCHK` (R146, R194). -/
def execAckchk (s : State) : Result :=
  command s (s.dec.accept (encode .ackchk) .ackLow)

end Sys2Proof.Machine
end

