-- ==== Sys2Proof/Machine/PinRequests.lean ====
section
/-! DEFINITION. The pin requests (40_pin_capability.md). The meaning of a request is its pin step (R121, R196(2)): the
environment's answer is taken, the request's own effect is made, and the command in flight goes on by R197. -/

namespace Sys2Proof.Machine

/-- `SET_LEVEL(l)` (R123): `plvl <- l` on `Ok`. -/
def execSetLevel (l : Level) (s : State) : Result :=
  pinCall (.setLevel l) s fun _ d =>
    whenOwn s.cfg (.setLevel l) (d.setPlvl l) Decoder.afterOk

/-- `SET_DIRECTION(dir)` (R125): `pdir <- dir` on `Ok`. -/
def execSetDirection (dir : Dir) (s : State) : Result :=
  pinCall (.setDirection dir) s fun _ d =>
    whenOwn s.cfg (.setDirection dir) (d.setPdir dir) Decoder.afterOk

/-- `READ_LEVEL` (R126): no command issues it, so no rule uses its answer and nothing of the decoder changes. -/
def execReadLevel (s : State) : Result :=
  pinCall .readLevel s fun _ d => d

/-- `WAIT_FOR_LEVEL(l, t)` (R124): `dur <- d` on `OkDur(d)`; a `Timeout` leaves `dur` (R46). -/
def execWaitForLevel (l : Level) (t : Nat) (s : State) : Result :=
  pinCall (.waitForLevel l t) s fun a d =>
    match a with
    | .okDur dur => whenOwn s.cfg (.waitForLevel l t) (d.setDur dur) (Decoder.afterOkDur s.cfg dur)
    | _ => whenOwn s.cfg (.waitForLevel l t) d (Decoder.afterTimeout s.cfg)

/-- `DELAY(t)` (R127). -/
def execDelay (t : Nat) (s : State) : Result :=
  pinCall (.delay t) s fun _ d => whenOwn s.cfg (.delay t) d Decoder.afterOk

end Sys2Proof.Machine
end

