-- ==== Sys2Proof/Machine/Sampling.lean ====
section
/-! DEFINITION. The sampling family (42_sampling.md): `SAMPLE`. -/

namespace Sys2Proof.Machine

/-- `SAMPLE` (R160, R194): acceptance runs the prologue, which clears `raw`. -/
def execSample (s : State) : Result :=
  command s (s.dec.accept (encode .sample) .bitLow).clearRaw

end Sys2Proof.Machine
end

