-- ==== Sys2Proof/Machine/Dispatch.lean ====
section
/-! DEFINITION. The dispatch: one arm for each instruction. -/

namespace Sys2Proof.Machine

def exec (i : Instr) (s : State) : Host.Outcome State Fault Refusal :=
  match i with
  | .read => Sys2Proof.Machine.execRead s
  | .beginTxn => Sys2Proof.Machine.execBegin s
  | .ackchk => Sys2Proof.Machine.execAckchk s
  | .sample => Sys2Proof.Machine.execSample s
  | .validate => Sys2Proof.Machine.execValidate s
  | .waitl lvl maxw => Sys2Proof.Machine.execWaitl lvl maxw s
  | .idle => Sys2Proof.Machine.execIdle s
  | .setLevel l => Sys2Proof.Machine.execSetLevel l s
  | .setDirection dir => Sys2Proof.Machine.execSetDirection dir s
  | .readLevel => Sys2Proof.Machine.execReadLevel s
  | .waitForLevel l t => Sys2Proof.Machine.execWaitForLevel l t s
  | .delay t => Sys2Proof.Machine.execDelay t s

end Sys2Proof.Machine
end

