-- ==== Sys2Proof/Machine/Moves.lean ====
section
/-! DEFINITION. The moves of the agents (R5, R82): host accesses (R72 to R77, R96, R194), the environment's answers
(R121), the decoder's internal step (R196) and reset (R240). -/

namespace Sys2Proof.Machine

/-- A host write of a word to `CMD` (R96, R194): a legal word is executed; while busy any word is discarded with
`OVR` (R76); an illegal word sets `ILL` (a vector says otherwise: log entry 20). -/
def writeCmd (v : Word) (s : State) : Result :=
  match decode .cmd v with
  | .ok i => exec i s
  | .error _ =>
    if s.dec.busy then .next { s with dec := s.dec.markOvr }
    else .next { s with dec := s.dec.markIll }

/-- A host write that changes `raw`: discarded with `OVR` while busy (R75, R76). -/
def writeRaw (f : Frame) (s : State) : Result :=
  if s.dec.busy then .next { s with dec := s.dec.markOvr }
  else .next { s with dec := s.dec.loadRaw f }

/-- `RAW.b[k] <- v[8k+7:8k]` for k = 0..3 (R75). -/
def withRaw0 (f : Frame) (v : Word) : Frame := #v[lane v 0, lane v 1, lane v 2, lane v 3, f[4]]

/-- `RAW.b[4] <- v[7:0]` (R75). -/
def withRaw1 (f : Frame) (v : Word) : Frame := #v[f[0], f[1], f[2], f[3], lane v 0]

/-- A host write of one register (R71, R75, R76): every index but `CMD`, `RAW0` and `RAW1` discards it. -/
def writeRegister (idx : Nat) (v : Word) (s : State) : Result :=
  match idx with
  | 0 => writeCmd v s
  | 6 => writeRaw (withRaw0 s.dec.raw v) s
  | 7 => writeRaw (withRaw1 s.dec.raw v) s
  | _ => .next s

/-- One host access (R72, R73, R77): a whole word of one of the sixteen registers, or refused (log entry 9). -/
def hostMove (a : HostAccess) (s : State) : Result :=
  match a with
  | .memRead idx width =>
    if width ≠ 4 then .refused (.accessWidth width)
    else if 16 ≤ idx then .refused (.accessIndex idx)
    else .next { s with rdata := readRegister s.cfg s.dec idx }
  | .memWrite idx width v =>
    if width ≠ 4 then .refused (.accessWidth width)
    else if 16 ≤ idx then .refused (.accessIndex idx)
    else writeRegister idx v s

/-- The environment's answer (R121): the outstanding request is fetched from the pin port and executed with it. With
nothing outstanding the answer causes no step (R240; log entry 10). -/
def answerMove (r : AnswerRec) (s : State) : Result :=
  match s.pinReq with
  | none => .next s
  | some w =>
    match decode .pinreq w with
    | .error _ => .refused .reservedRequest
    | .ok i => exec i { s with pinAns := some r }

/-- One move. -/
def doMove (m : Move) (s : State) : Result :=
  match m with
  | .host a => hostMove a s
  | .answer r => answerMove r s
  | .internal => .next (internalStep s)
  | .reset => .next (resetBlock s)

/-- The next step of the total order (R82): the first move of the script. With no move left the check step, which
needs no other agent, is still taken (R196), and otherwise the block waits (R132). -/
def nextMove (s : State) : Result :=
  match s.script with
  | [] => .next (internalStep s)
  | m :: rest => doMove m { s with script := rest }

/-! ## Placing one instruction for the next step -/

/-- A plain answer to a request, the one a placed request is answered with (log entry 15). -/
def plainAnswer : Instr → Answer
  | .readLevel => .okLevel .low
  | .waitForLevel _ _ => .okDur 0#32
  | _ => .ok

/-- A command word placed as the host's next write, with the block idle so that it is accepted (R194). -/
def placeCommand (v : Word) (s : State) : State :=
  { s with
    dec := { s.dec with busy := false, phase := .idle }
    pinReq := none
    script := .host (.memWrite 0 4 v) :: s.script }

/-- A request word placed on the pin port, with the environment's answer as the next move (R121). -/
def placeRequest (v : Word) (s : State) : State :=
  let a := match decode .pinreq v with
    | .ok i => plainAnswer i
    | .error _ => .ok
  { s with pinReq := some v, script := .answer (encodeAnswer a) :: s.script }

/-- A word of the opcode table placed for the next step, on the port of its format (log entries 1 and 15). -/
def placeWord (nbits w : Nat) (s : State) : State :=
  match tableFormat nbits (BitVec.ofNat 32 w) with
  | .cmd => placeCommand (BitVec.ofNat 32 w) s
  | .pinreq => placeRequest (BitVec.ofNat 32 w) s

end Sys2Proof.Machine
end

