-- ==== Sys2Proof/Machine/Step.lean ====
section
/-! DEFINITION. The step function. -/

namespace Sys2Proof.Machine

/-- One step: refused from an illegal configuration (R9), otherwise the next move of the total order (R82). No step takes
time (R6, R254; log entry 22). -/
def step (s : State) : Host.Outcome State Fault Refusal :=
  if s.cfg.legal then nextMove s else .refused .illegalConfiguration

/-- The state in which the very next step runs the instruction of a table word (log entry 15). -/
def State.withFetchWord (s : State) (nbits w : Nat) : State := placeWord nbits w s

end Sys2Proof.Machine
end

