-- ==== Sys2Proof/Machine/HostSyntax.lean ====
section
/-! DEFINITION. The host's program syntax (R107) and its pseudo-instructions (R108): what a line of a host program
stands for (log entry 18). -/

namespace Sys2Proof.Machine

/-- A statement of a host program (R107, R108). `waitDone` is a loop of the host, not an operation of the block. -/
inductive HostStmt where
  | rd (idx : Nat)
  | wr (idx : Nat) (v : Word)
  | waitDone
  deriving DecidableEq, Repr

/-- The register names (R71). -/
def registerNames : List (List Char × Nat) :=
  [("CMD".toList, 0), ("STATUS".toList, 1), ("ERRINFO".toList, 2), ("EDUR".toList, 3)] ++
  [("PINERR".toList, 4), ("DUR".toList, 5), ("RAW0".toList, 6), ("RAW1".toList, 7)] ++
  [("MEAS".toList, 8), ("CFG_HOLD".toList, 9), ("CFG_ZERO".toList, 10), ("CFG_ONE".toList, 11)] ++
  [("CFG_ACK".toList, 12), ("CFG_TACK".toList, 13), ("CFG_TBIT".toList, 14)]

/-- A decimal digit's value. -/
def decDigit (c : Char) : Option Nat :=
  if 48 ≤ c.toNat ∧ c.toNat ≤ 57 then some (c.toNat - 48) else none

/-- A hexadecimal digit's value. -/
def hexDigit (c : Char) : Option Nat :=
  if 48 ≤ c.toNat ∧ c.toNat ≤ 57 then some (c.toNat - 48)
  else if 65 ≤ c.toNat ∧ c.toNat ≤ 70 then some (c.toNat - 55)
  else if 97 ≤ c.toNat ∧ c.toNat ≤ 102 then some (c.toNat - 87)
  else none

/-- A number from its digits in a base, after the value read so far. -/
def digits (digit : Char → Option Nat) (base : Nat) : Nat → List Char → Option Nat
  | acc, [] => some acc
  | acc, c :: cs =>
    match digit c with
    | some n => digits digit base (acc * base + n) cs
    | none => none

/-- A number in decimal or `0x` hex (R107). -/
def parseNumber : List Char → Option Nat
  | [] => none
  | ['0', 'x'] => none
  | '0' :: 'x' :: cs => digits hexDigit 16 0 cs
  | cs => digits decDigit 10 0 cs

/-- `<reg>`: a register name, or a decimal index 0..15 (R107). -/
def parseReg (cs : List Char) : Option Nat :=
  match registerNames.lookup cs with
  | some idx => some idx
  | none =>
    match cs with
    | [] => none
    | _ =>
      match digits decDigit 10 0 cs with
      | some n => if n ≤ 15 then some n else none
      | none => none

/-- `<value>`: a 32-bit number (R107). -/
def parseValue (cs : List Char) : Option Word :=
  match parseNumber cs with
  | some n => if n < 2 ^ 32 then some (BitVec.ofNat 32 n) else none
  | none => none

/-- `<t>`: 0 to 2^24-1 (R108). -/
def parseTime (cs : List Char) : Option Nat :=
  match parseNumber cs with
  | some n => if n ≤ 2 ^ 24 - 1 then some n else none
  | none => none

/-- The line without its comment, which starts with `;` (R107). -/
def dropComment : List Char → List Char
  | [] => []
  | c :: cs => if c = ';' then [] else c :: dropComment cs

/-- The words of a line, after the word read so far: blanks separate words, and a comma is a word of its own. -/
def lineWords : List Char → List Char → List (List Char)
  | acc, [] => if acc = [] then [] else [acc]
  | acc, c :: cs =>
    if c = ' ' ∨ c = '\t' ∨ c = '\r' then (if acc = [] then lineWords [] cs else acc :: lineWords [] cs)
    else if c = ',' then (if acc = [] then [','] :: lineWords [] cs else acc :: [','] :: lineWords [] cs)
    else lineWords (acc ++ [c]) cs

/-- The write that issues a command (R108). -/
def commandStmt (i : Instr) : HostStmt := .wr 0 (encode i)

/-- The bare pseudo-instructions of R108. -/
def bareStmts : List (List Char × HostStmt) :=
  [("READ".toList, commandStmt .read), ("BEGIN".toList, commandStmt .beginTxn)] ++
  [("ACKCHK".toList, commandStmt .ackchk), ("SAMPLE".toList, commandStmt .sample)] ++
  [("VALIDATE".toList, commandStmt .validate), ("IDLE".toList, commandStmt .idle), ("WAITDONE".toList, .waitDone)]

/-- `WAITL LOW, <t>` and `WAITL HIGH, <t>` (R108). -/
def waitlStmt (lvl time : List Char) : Option HostStmt :=
  match parseTime time with
  | none => none
  | some t =>
    if lvl = "LOW".toList then some (commandStmt (.waitl .low t))
    else if lvl = "HIGH".toList then some (commandStmt (.waitl .high t))
    else none

/-- What the words of a line stand for: no statement for an empty line, and an error for any other line the syntax
does not give (R107, R108). -/
def parseWords : List (List Char) → Except Unit (Option HostStmt)
  | [] => .ok none
  | [w] =>
    match bareStmts.lookup w with
    | some st => .ok (some st)
    | none => .error ()
  | [w, r] =>
    if w = "RD".toList then
      match parseReg r with
      | some idx => .ok (some (.rd idx))
      | none => .error ()
    else .error ()
  | [w, r, [','], v] =>
    if w = "WR".toList then
      match parseReg r, parseValue v with
      | some idx, some n => .ok (some (.wr idx n))
      | _, _ => .error ()
    else if w = "WAITL".toList then
      match waitlStmt r v with
      | some st => .ok (some st)
      | none => .error ()
    else .error ()
  | _ => .error ()

/-- One line of a host program (R107). -/
def parseLine (cs : List Char) : Except Unit (Option HostStmt) := parseWords (lineWords [] (dropComment cs))

/-- The access a statement makes: `WAITDONE` polls `STATUS` (R107, R108). -/
def HostStmt.access : HostStmt → HostAccess
  | .rd idx => .memRead idx 4
  | .wr idx v => .memWrite idx 4 v
  | .waitDone => .memRead 1 4

/-- Whether the host goes on to its next statement after the access: `WAITDONE` only when `STATUS[1]` was read as 1. -/
def HostStmt.leaves (rdata : Word) : HostStmt → Bool
  | .rd _ => true
  | .wr _ _ => true
  | .waitDone => rdata.getLsbD 1

end Sys2Proof.Machine
end

