-- ==== Sys2Proof/Machine/IdealEnv.lean ====
section
/-! DEFINITION. The ideal environment and the reference pulse train (R133, R134), from which the spec derives its test
vectors. No rule of the block depends on them, and neither does the step (log entry 17). -/

namespace Sys2Proof.Machine

/-- A waveform: segments of a level and a length in microseconds; the last one lasts for ever (R133). -/
abbrev Waveform := List (Level × Nat)

/-- The least time s ≥ τ at which the line is at level l, for a waveform that begins at time `start` (R133). -/
def Waveform.seek (l : Level) : Waveform → Nat → Nat → Option Nat
  | [], _, _ => none
  | [(l1, _)], start, tau => if l1 = l then some (max start tau) else none
  | (l1, n) :: rest, start, tau =>
    if l1 = l ∧ max start tau < start + n then some (max start tau) else Waveform.seek l rest (start + n) tau

/-- The level of the line at time τ (R133). -/
def Waveform.levelAt : Waveform → Nat → Nat → Level
  | [], _, _ => .low
  | [(l1, _)], _, _ => l1
  | (l1, n) :: rest, start, tau => if tau < start + n then l1 else Waveform.levelAt rest (start + n) tau

/-- The answer of the ideal environment to a request at time τ, and its time after (R133). -/
def idealAnswer (w : Waveform) (tau : Nat) : Instr → Answer × Nat
  | .readLevel => (.okLevel (w.levelAt 0 tau), tau)
  | .waitForLevel l t =>
    match w.seek l 0 tau with
    | some s => if s - tau ≤ t then (.okDur (BitVec.ofNat 32 (s - tau)), s) else (.timeout, tau + t)
    | none => (.timeout, tau + t)
  | _ => (.ok, tau)

/-- The length of a high phase in the reference train (R134). -/
def refHigh (b : Bit) : Nat := if b then 70 else 27

/-- `ref_train(B)` (R134). The length written for the last segment is not used. -/
def refTrain (f : Frame) : Waveform :=
  [(.high, 30), (.low, 80), (.high, 80)] ++
  (List.range 40).flatMap (fun i => [(Level.low, 50), (Level.high, refHigh (frameBit f i))]) ++
  [(.low, 50), (.high, 0)]

/-- The next move of the ideal environment and the decoder: the answer to the outstanding request, or the check step. -/
def idealMove (w : Waveform) (tau : Nat) (s : State) : Move × Nat :=
  match s.pinReq with
  | none => (.internal, tau)
  | some r =>
    match decode .pinreq r with
    | .error _ => (.internal, tau)
    | .ok i => ((.answer (encodeAnswer (idealAnswer w tau i).1)), (idealAnswer w tau i).2)

/-- A run of n moves of the ideal environment and the decoder from time τ. -/
def idealRun (w : Waveform) : Nat → Nat → State → Result
  | 0, _, s => .next s
  | n + 1, tau, s =>
    match step { s with script := [(idealMove w tau s).1] } with
    | .next t => idealRun w n (idealMove w tau s).2 t
    | .fault f => .fault f
    | .refused r => .refused r

end Sys2Proof.Machine
end

