-- ==== Sys2Proof/Safety.lean ====
section
/-! DEFINITION. What claims are stated in: runs, the invariants of R55 and of the ports, the phase sequences (R105), the
errors of each command (R220), and the timed duties of the environment (R135). -/

namespace Sys2Proof.Machine

/-- `n` steps, stopping at the first that gives no next state. -/
def runs : Nat → State → Result
  | 0, s => .next s
  | n + 1, s =>
    match step s with
    | .next t => runs n t
    | .fault f => .fault f
    | .refused r => .refused r

/-- The environment's answer to the outstanding request stands on the pin port (R121). -/
abbrev State.answered (s : State) (a : Answer) : Prop := s.pinAns = some (encodeAnswer a)

/-- The phases in which a command may be (R104 "used by", R105). -/
def commandPhase (op : BitVec 4) (p : Phase) : Bool :=
  match p with
  | .idle => false
  | .bDirOut => op == 0x1#4 || op == 0x2#4
  | .bLow => op == 0x1#4 || op == 0x2#4
  | .bHold => op == 0x1#4 || op == 0x2#4
  | .bHigh => op == 0x1#4 || op == 0x2#4
  | .bDirIn => op == 0x1#4 || op == 0x2#4
  | .ackStart => op == 0x1#4 || op == 0x2#4
  | .ackLow => op == 0x1#4 || op == 0x3#4
  | .ackHigh => op == 0x1#4 || op == 0x3#4
  | .bitLow => op == 0x1#4 || op == 0x4#4
  | .bitHigh => op == 0x1#4 || op == 0x4#4
  | .check => op == 0x1#4 || op == 0x5#4
  | .waitL => op == 0x6#4
  | .idleDir => op == 0x7#4
  | .idleLvl => op == 0x7#4

/-- Which command may report which error (R220); every command may report success. -/
def mayReport (op : BitVec 4) (e : ErrKind) : Bool :=
  match e with
  | .none => true
  | .ackTimeout => op == 0x1#4 || op == 0x2#4 || op == 0x3#4
  | .ackPulseOutOfRange => op == 0x1#4 || op == 0x3#4
  | .levelTimeout => op == 0x1#4 || op == 0x4#4 || op == 0x6#4
  | .bitOutOfRange => op == 0x1#4 || op == 0x4#4
  | .checksumMismatch => op == 0x1#4 || op == 0x5#4
  | .pinFault => op == 0x1#4 || op == 0x2#4 || op == 0x3#4 || op == 0x4#4 || op == 0x6#4 || op == 0x7#4

/-- The invariants of R55 (a) to (f), with the record's clearing while a command runs (R194, R212), the index while
sampling (R32), the command of each phase (R104) and the error of each command (R220). -/
structure Decoder.Consistent (d : Decoder) : Prop where
  busy_iff : d.busy = true ↔ d.phase ≠ .idle
  done_not_busy : d.done = true → d.busy = false
  ok_done : d.ok = true → d.done = true ∧ d.err = .none
  failed_err : d.done = true → d.ok = false → d.err ≠ .none
  busy_clear : d.busy = true → d.done = false ∧ d.ok = false ∧ d.err = .none
  record_clear : d.busy = true →
    d.eidx = 0#6 ∧ d.ecomp = 0#8 ∧ d.erecv = 0#8 ∧ d.ephase = .idle ∧ d.edur = 0#32 ∧ d.pinerr = 0#32
  bitidx_le : d.bitidx.toNat ≤ 40
  sampling_lt : d.phase = .bitLow ∨ d.phase = .bitHigh → d.bitidx.toNat < 40
  phase_of_op : d.phase ≠ .idle → commandPhase d.op d.phase = true
  err_of_op : d.done = true → mayReport d.op d.err = true

/-- The invariant of the whole machine: a legal configuration, a consistent record, no answer left on the pin port, and
on the port exactly the request of the current phase (R9, R83, R104). -/
structure State.Inv (s : State) : Prop where
  cfg_legal : s.cfg.legal = true
  consistent : s.dec.Consistent
  no_answer : s.pinAns = none
  own_request : s.pinReq = (requestOf s.cfg s.dec).map encode

/-- The frame while bit i is being sampled (R162): byte k holds at most `i - 8k` bits, with 0s above them. -/
def partialFrame (f : Frame) (i : Nat) : Prop :=
  ∀ k : Fin 5, (f[k]).toNat < 2 ^ (min 8 (i - 8 * k.val))

/-- R162 as an invariant: in the sampling phases `raw` holds only the bits accepted so far. -/
def Decoder.SamplingFrame (d : Decoder) : Prop :=
  d.phase = .bitLow ∨ d.phase = .bitHigh → partialFrame d.raw d.bitidx.toNat

/-- Whether a phase may follow another in one step that raises no error and completes nothing (R105, R197). -/
def phaseFollows (p q : Phase) : Bool :=
  match p, q with
  | .bDirOut, .bLow => true
  | .bLow, .bHold => true
  | .bHold, .bHigh => true
  | .bHigh, .bDirIn => true
  | .bDirIn, .ackStart => true
  | .ackStart, .ackLow => true
  | .ackLow, .ackHigh => true
  | .ackHigh, .bitLow => true
  | .bitLow, .bitHigh => true
  | .bitHigh, .bitLow => true
  | .bitHigh, .check => true
  | .idleDir, .idleLvl => true
  | _, _ => false

/-- The first phase of each command (R194). -/
def firstPhase : Instr → Option Phase
  | .read => some .bDirOut
  | .beginTxn => some .bDirOut
  | .ackchk => some .ackLow
  | .sample => some .bitLow
  | .validate => some .check
  | .waitl _ _ => some .waitL
  | .idle => some .idleDir
  | _ => none

/-- The request words on the pin port at the start of each of `n` steps that take an answer (R83, R101). -/
def issued : Nat → State → List Word
  | 0, _ => []
  | n + 1, s =>
    let here := match s.script, s.pinReq with
      | .answer _ :: _, some w => [w]
      | _, _ => []
    match step s with
    | .next t => here ++ issued n t
    | _ => here

/-- The moves in which the environment answers a list of answers, in order. -/
def answers (as : List Answer) : List Move := as.map fun a => .answer (encodeAnswer a)

/-- The answers of the sampling loop: for each bit its low and its high duration (R160). -/
def bitAnswers (ds : List (Word × Word)) : List Answer := ds.flatMap fun p => [.okDur p.1, .okDur p.2]

/-- The high durations of a list of bits, each classified as the frame's bit of its place (R161, R162). -/
def carries (cfg : Config) (f : Frame) (ds : List (Word × Word)) : Prop :=
  ds.length = 40 ∧ ∀ i p, ds[i]? = some p → classify cfg p.2 = some (frameBit f i)

/-- An answer with the time the environment took to give it. The block has no clock (R6), so this is no part of State. -/
structure TimedAnswer where
  answer : Answer
  elapsed : Nat
  deriving DecidableEq, Repr

/-- The time within which a request must be answered, where the spec bounds it (R130, R132, R135): a wait, whatever the
answer, by its bound and the slack. The other requests are answered in finite time, which any `elapsed` is. -/
def answeredInTime : Instr → Nat → Prop
  | .waitForLevel _ t, elapsed => elapsed ≤ t + Config.timeoutSlackUs
  | _, _ => True

/-- The timed duties of the environment (R122, R127, R130, R132, R135): an answer of the request's domain, in time;
`DELAY` answered `Ok` no earlier than its time; a level reported within the bound; a `Timeout` not before the bound
(log entry 13). -/
def dutiful (req : Instr) (ta : TimedAnswer) : Prop :=
  inDomain req ta.answer = true ∧ answeredInTime req ta.elapsed ∧
  match req, ta.answer with
  | .delay t, .ok => t ≤ ta.elapsed
  | .waitForLevel _ t, .okDur d => d.toNat ≤ t
  | .waitForLevel _ t, .timeout => t ≤ ta.elapsed
  | _, _ => True

/-- The next move of an environment that answers every request, and of the decoder: the k-th answer, to the outstanding
request, or the check step (R132, R196). -/
def answeredMove (env : Nat → Instr → Answer) (k : Nat) (s : State) : Move :=
  match s.pinReq with
  | none => .internal
  | some w =>
    match decode .pinreq w with
    | .ok i => .answer (encodeAnswer (env k i))
    | .error _ => .internal

/-- A run of n moves of such an environment and the decoder, from its k-th answer. -/
def answeredRun (env : Nat → Instr → Answer) : Nat → Nat → State → Result
  | 0, _, s => .next s
  | n + 1, k, s =>
    match step { s with script := [answeredMove env k s] } with
    | .next t => answeredRun env n (k + 1) t
    | .fault f => .fault f
    | .refused r => .refused r

end Sys2Proof.Machine
end

