-- ==== Sys2Proof/Certificates/Slice0/Obligations.lean ====
section
/-! DEFINITION. The statements for the provers. Each docstring names the rules of spec/ the statement formalises. A
statement that gives a next state as a record update says with it that every field it does not name is unchanged. That
the moves of the agents stand in `script`, the value of a host read in `rdata` and the configuration in `cfg` is the
model's form of R82, R74 and R10 (log entries 2, 3 and 5). -/

open Sys2Proof Sys2Proof.Machine

/-! ## Encoding -/

/-- Words written out in 30_encoding.md and 95_test_vectors.md L2.1 decode to what they stand for. -/
def Obligations.DecodesTheWordsOfTheSpec : Prop :=
  decode .cmd 0x00000001#32 = .ok .read ∧
  decode .cmd 0x00000002#32 = .ok .beginTxn ∧
  decode .cmd 0x00006416#32 = .ok (.waitl .high 100) ∧
  decode .cmd 0xFFFFFF16#32 = .ok (.waitl .high 16777215) ∧
  decode .cmd 0x00000000#32 = .error .reservedOp ∧
  decode .cmd 0x00000017#32 = .error .reservedCommandBits ∧
  decode .cmd 0x00000086#32 = .error .reservedCommandBits ∧
  decode .pinreq 0x00000009#32 = .ok (.setDirection .output) ∧
  decode .pinreq 0x004E2004#32 = .ok (.delay 20000) ∧
  decode .pinreq 0x0000640B#32 = .ok (.waitForLevel .high 100) ∧
  decode .pinreq 0x00000002#32 = .ok .readLevel

/-- Every well-formed instruction of both formats is read back from its word (R91, R98 to R100). -/
def Obligations.DecodeOfEncodeIsTheInstruction : Prop :=
  ∀ i : Instr, i.wf = true → decode i.format (encode i) = .ok i

/-- No two words stand for one instruction on one port, and only well-formed instructions are read (R93, R100). -/
def Obligations.EncodeOfDecodeIsTheWord : Prop :=
  ∀ (f : Format) (v : Word) (i : Instr), decode f v = .ok i → encode i = v ∧ i.format = f ∧ i.wf = true

/-- R93: which command words are legal, by their fields and by the rows of the table; no word matches two rows. -/
def Obligations.CommandLegalExactlyWhenOneRowMatches : Prop :=
  ∀ v : Word,
    let rows : List (Word × Word) :=
      [(0x1#32, 0xFFFFFFFF#32), (0x2#32, 0xFFFFFFFF#32), (0x3#32, 0xFFFFFFFF#32), (0x4#32, 0xFFFFFFFF#32),
       (0x5#32, 0xFFFFFFFF#32), (0x6#32, 0x000000EF#32), (0x7#32, 0xFFFFFFFF#32)]
    let matching := rows.filter fun r => (v &&& r.2) == r.1
    ((∃ i, decodeCmd v = .ok i) ↔
      (v.extractLsb' 0 4 ∈ [0x1#4, 0x2#4, 0x3#4, 0x4#4, 0x5#4, 0x7#4] ∧ v.extractLsb' 4 28 = 0#28) ∨
      (v.extractLsb' 0 4 = 0x6#4 ∧ v.extractLsb' 5 3 = 0#3)) ∧
    ((∃ i, decodeCmd v = .ok i) ↔ matching.length = 1) ∧
    matching.length ≤ 1

/-- The general forms of R101, as numbers: bits [31:8] are the time, bit 3 the level, bits [2:0] the operation. -/
def Obligations.TimedRequestWordsAreTimeLevelOperation : Prop :=
  ∀ t : Nat, t ≤ 2 ^ 24 - 1 →
    (encode (.waitForLevel .low t)).toNat = t * 256 + 3 ∧
    (encode (.waitForLevel .high t)).toNat = t * 256 + 11 ∧
    (encode (.delay t)).toNat = t * 256 + 4 ∧
    (encode (.waitl .low t)).toNat = t * 256 + 6 ∧
    (encode (.waitl .high t)).toNat = t * 256 + 22

/-- R102: the record of each answer; every answer is read back from its record, every record that is read is the
answer's own, and the reserved kinds are rejected. That a record with another `DATA` than the answer's is not read is
the model's reading (log entry 8), and the name of the rejection is the model's (log entry 21). -/
def Obligations.AnswerRecordsAreUnambiguous : Prop :=
  (encodeAnswer .ok = ⟨0#3, 0#32⟩ ∧ encodeAnswer (.okLevel .low) = ⟨1#3, 0#32⟩ ∧
   encodeAnswer (.okLevel .high) = ⟨1#3, 1#32⟩ ∧ (∀ d, encodeAnswer (.okDur d) = ⟨2#3, d⟩) ∧
   encodeAnswer .timeout = ⟨3#3, 0#32⟩ ∧ ∀ e, encodeAnswer (.fault e) = ⟨4#3, e⟩) ∧
  (∀ a : Answer, decodeAnswer (encodeAnswer a) = .ok a) ∧
  (∀ (r : AnswerRec) (a : Answer), decodeAnswer r = .ok a → encodeAnswer a = r) ∧
  (∀ r : AnswerRec, 5 ≤ r.kind.toNat → decodeAnswer r = .error .reservedKind)

/-- R107, R108: lines of a host program and the accesses they stand for. -/
def Obligations.HostLinesStandForTheirAccesses : Prop :=
  parseLine "WR CMD, 0x00000007 ; IDLE".toList = .ok (some (.wr 0 0x7#32)) ∧
  parseLine "RD 15".toList = .ok (some (.rd 15)) ∧
  parseLine "WAITL HIGH, 100".toList = .ok (some (.wr 0 0x00006416#32)) ∧
  parseLine "RD 16".toList = .error () ∧
  (HostStmt.wr 0 0x1#32).access = .memWrite 0 4 0x1#32 ∧
  HostStmt.waitDone.access = .memRead 1 4 ∧
  (∀ v : Word, HostStmt.waitDone.leaves v = v.getLsbD 1)

/-! ## Steps -/

/-- A step runs the decoded instruction. A host write of a command word is the fetch of a command (R194); an answer to
the word on the pin port is the fetch of a pin request (R121, R196). Around exec the step moves past the script's first
move and, for a request, puts the answer on the port. -/
def Obligations.StepRunsTheDecodedInstruction : Prop :=
  (∀ (s : State) (v : Word) (i : Instr) (rest : List Move),
    s.cfg.legal = true → s.script = .host (.memWrite 0 4 v) :: rest → decode .cmd v = .ok i →
    step s = exec i { s with script := rest }) ∧
  (∀ (s : State) (r : AnswerRec) (w : Word) (i : Instr) (rest : List Move),
    s.cfg.legal = true → s.script = .answer r :: rest → s.pinReq = some w → decode .pinreq w = .ok i →
    step s = exec i { s with script := rest, pinAns := some r })

/-- R9: from an illegal configuration there is no run; from a legal one no step is refused for that reason. -/
def Obligations.IllegalConfigurationHasNoRun : Prop :=
  ∀ s : State,
    (¬ (18000 ≤ s.cfg.holdUs ∧ s.cfg.holdUs ≤ 2 ^ 24 - 1 ∧
        s.cfg.zeroMin ≤ s.cfg.zeroMax ∧ s.cfg.zeroMax < s.cfg.oneMin ∧ s.cfg.oneMin ≤ s.cfg.oneMax ∧
        s.cfg.oneMax ≤ 2 ^ 16 - 1 ∧ s.cfg.ackMin ≤ s.cfg.ackMax ∧ s.cfg.ackMax ≤ 2 ^ 16 - 1 ∧
        1 ≤ s.cfg.tAckStart ∧ s.cfg.tAckStart ≤ 2 ^ 16 - 1 ∧
        s.cfg.ackMax ≤ s.cfg.tAckPhase ∧ s.cfg.tAckPhase ≤ 2 ^ 16 - 1 ∧
        1 ≤ s.cfg.tBitLow ∧ s.cfg.tBitLow ≤ 2 ^ 16 - 1 ∧
        s.cfg.oneMax ≤ s.cfg.tBitHigh ∧ s.cfg.tBitHigh ≤ 2 ^ 16 - 1)) ↔
      step s = .refused .illegalConfiguration

/-! ## The host port -/

/-- R74: a read returns the register's value and changes nothing of the block; two reads in a row return the same. -/
def Obligations.HostReadHasNoSideEffect : Prop :=
  ∀ (s : State) (idx : Nat) (rest : List Move),
    s.cfg.legal = true → idx < 16 →
    (s.script = .host (.memRead idx 4) :: rest →
      step s = .next { s with script := rest, rdata := readRegister s.cfg s.dec idx }) ∧
    (s.script = .host (.memRead idx 4) :: .host (.memRead idx 4) :: rest →
      runs 2 s = .next { s with script := rest, rdata := readRegister s.cfg s.dec idx })

/-- R37, R103, R104: the fields of `STATUS`, all 0 after reset, and the codes that its `ERR` and `PHASE` fields and the
`EPHASE` field of `ERRINFO` show. -/
def Obligations.StatusShowsItsFields : Prop :=
  (∀ e : ErrKind, e.code.toNat = match e with
    | .none => 0
    | .ackTimeout => 1
    | .ackPulseOutOfRange => 2
    | .levelTimeout => 3
    | .bitOutOfRange => 4
    | .checksumMismatch => 5
    | .pinFault => 6) ∧
  (∀ p : Phase, p.code.toNat = match p with
    | .idle => 0
    | .bDirOut => 1
    | .bLow => 2
    | .bHold => 3
    | .bHigh => 4
    | .bDirIn => 5
    | .ackStart => 6
    | .ackLow => 7
    | .ackHigh => 8
    | .bitLow => 9
    | .bitHigh => 10
    | .check => 11
    | .waitL => 12
    | .idleDir => 13
    | .idleLvl => 14) ∧
  ∀ (cfg : Config) (d : Decoder),
    let v := readRegister cfg d 1
    readRegister cfg State.reset.dec 1 = 0#32 ∧
    v.getLsbD 0 = d.busy ∧ v.getLsbD 1 = d.done ∧ v.getLsbD 2 = d.ok ∧ v.getLsbD 3 = d.mvalid ∧
    v.extractLsb' 4 4 = d.err.code ∧ v.extractLsb' 8 4 = d.phase.code ∧ v.extractLsb' 12 6 = d.bitidx ∧
    v.getLsbD 18 = d.ill ∧ v.getLsbD 19 = d.ovr ∧
    (v.getLsbD 20 = true ↔ d.pdir = .output) ∧ (v.getLsbD 21 = true ↔ d.plvl = .high) ∧
    v.extractLsb' 22 4 = d.op ∧ v.extractLsb' 26 6 = 0#6

/-- R43 to R47, R49, R73, R79: `ERRINFO`, the whole-word registers, the byte lanes of `RAW0`, `RAW1` and `MEAS`, and the
registers that read 0. -/
def Obligations.DataRegistersShowTheirFields : Prop :=
  ∀ (cfg : Config) (d : Decoder),
    ((readRegister cfg d 2).extractLsb' 0 6 = d.eidx ∧ (readRegister cfg d 2).extractLsb' 6 2 = 0#2 ∧
     (readRegister cfg d 2).extractLsb' 8 8 = d.ecomp ∧ (readRegister cfg d 2).extractLsb' 16 8 = d.erecv ∧
     (readRegister cfg d 2).extractLsb' 24 4 = d.ephase.code ∧ (readRegister cfg d 2).extractLsb' 28 4 = 0#4) ∧
    readRegister cfg d 3 = d.edur ∧ readRegister cfg d 4 = d.pinerr ∧ readRegister cfg d 5 = d.dur ∧
    (∀ k : Fin 4, (readRegister cfg d 6).extractLsb' (8 * k.val) 8 = d.raw[k.val]) ∧
    ((readRegister cfg d 7).extractLsb' 0 8 = d.raw[4] ∧ (readRegister cfg d 7).extractLsb' 8 24 = 0#24) ∧
    ((readRegister cfg d 8).extractLsb' 0 8 = d.meas.humidityInt ∧
     (readRegister cfg d 8).extractLsb' 8 8 = d.meas.humidityFrac ∧
     (readRegister cfg d 8).extractLsb' 16 8 = d.meas.temperatureInt ∧
     (readRegister cfg d 8).extractLsb' 24 8 = d.meas.temperatureFrac) ∧
    readRegister cfg d 0 = 0#32 ∧ readRegister cfg d 15 = 0#32

/-- R48: the configuration registers return the parameters of a legal configuration, and writes to them are discarded. -/
def Obligations.ConfigurationRegistersShowTheParameters : Prop :=
  (∀ (cfg : Config) (d : Decoder), cfg.legal = true →
    (readRegister cfg d 9).toNat = cfg.holdUs ∧
    (readRegister cfg d 10).toNat = cfg.zeroMax * 2 ^ 16 + cfg.zeroMin ∧
    (readRegister cfg d 11).toNat = cfg.oneMax * 2 ^ 16 + cfg.oneMin ∧
    (readRegister cfg d 12).toNat = cfg.ackMax * 2 ^ 16 + cfg.ackMin ∧
    (readRegister cfg d 13).toNat = cfg.tAckPhase * 2 ^ 16 + cfg.tAckStart ∧
    (readRegister cfg d 14).toNat = cfg.tBitHigh * 2 ^ 16 + cfg.tBitLow) ∧
  (∀ (s : State) (idx : Nat) (v : Word) (rest : List Move), s.cfg.legal = true → 9 ≤ idx → idx ≤ 14 →
    s.script = .host (.memWrite idx 4 v) :: rest → step s = .next { s with script := rest })

/-- R75: the writes of an idle block. The write of a legal command word issues it; what each command then does is R194,
stated below. -/
def Obligations.IdleHostWriteLoadsRawOrIsDiscarded : Prop :=
  ∀ (s : State) (v : Word) (rest : List Move), s.cfg.legal = true → s.dec.busy = false →
    (∀ i, decode .cmd v = .ok i → s.script = .host (.memWrite 0 4 v) :: rest →
      step s = exec i { s with script := rest }) ∧
    (s.script = .host (.memWrite 6 4 v) :: rest →
      step s = .next { s with
        script := rest
        dec := { s.dec with raw := #v[v.extractLsb' 0 8, v.extractLsb' 8 8, v.extractLsb' 16 8, v.extractLsb' 24 8, s.dec.raw[4]] } }) ∧
    (s.script = .host (.memWrite 7 4 v) :: rest →
      step s = .next { s with
        script := rest
        dec := { s.dec with raw := #v[s.dec.raw[0], s.dec.raw[1], s.dec.raw[2], s.dec.raw[3], v.extractLsb' 0 8] } }) ∧
    (∀ idx : Nat, (1 ≤ idx ∧ idx ≤ 5) ∨ (8 ≤ idx ∧ idx ≤ 15) →
      s.script = .host (.memWrite idx 4 v) :: rest → step s = .next { s with script := rest })

/-- R76: a write of `CMD` (any word, legal or not), `RAW0` or `RAW1` while busy sets `OVR` and changes nothing else; a
write of another register is discarded. -/
def Obligations.BusyHostWriteIsDiscarded : Prop :=
  ∀ (s : State) (v : Word) (idx : Nat) (rest : List Move), s.cfg.legal = true → s.dec.busy = true →
    s.script = .host (.memWrite idx 4 v) :: rest →
    (idx = 0 ∨ idx = 6 ∨ idx = 7 →
      step s = .next { s with script := rest, dec := { s.dec with ovr := true } }) ∧
    ((1 ≤ idx ∧ idx ≤ 5) ∨ (8 ≤ idx ∧ idx ≤ 15) → step s = .next { s with script := rest })

/-- R96: an illegal command word sets `ILL` and nothing else while idle, and `OVR` and nothing else while busy. -/
def Obligations.IllegalCommandWordIsNotExecuted : Prop :=
  ∀ (s : State) (v : Word) (rest : List Move), s.cfg.legal = true →
    s.script = .host (.memWrite 0 4 v) :: rest →
    ¬ ((v.extractLsb' 0 4 ∈ [0x1#4, 0x2#4, 0x3#4, 0x4#4, 0x5#4, 0x7#4] ∧ v.extractLsb' 4 28 = 0#28) ∨
       (v.extractLsb' 0 4 = 0x6#4 ∧ v.extractLsb' 5 3 = 0#3)) →
    (s.dec.busy = false → step s = .next { s with script := rest, dec := { s.dec with ill := true } }) ∧
    (s.dec.busy = true → step s = .next { s with script := rest, dec := { s.dec with ovr := true } })

/-- R72, R73: an access of another width, and an access to an index outside 0..15, is refused. -/
def Obligations.AccessesThatDoNotExistAreRefused : Prop :=
  ∀ (s : State) (idx width : Nat) (v : Word) (rest : List Move), s.cfg.legal = true →
    s.script = .host (.memRead idx width) :: rest ∨ s.script = .host (.memWrite idx width v) :: rest →
    (width ≠ 4 → step s = .refused (.accessWidth width)) ∧
    (width = 4 → 16 ≤ idx → step s = .refused (.accessIndex idx))

/-! ## Acceptance of the seven commands (R194) -/

/-- R194 for `READ`, `BEGIN` and `IDLE`: the idle block accepts; the words outstanding are those of R101. -/
def Obligations.ReadBeginIdleAreAccepted : Prop :=
  ∀ s : State, s.dec.busy = false →
    (exec .read s = .next { s with
      pinAns := none, pinReq := some 0x00000009#32
      dec := { s.dec with
        op := 0x1#4, wlvl := .low, wmax := 0#24, busy := true, done := false, ok := false, err := .none
        eidx := 0#6, ecomp := 0#8, erecv := 0#8, ephase := .idle, edur := 0#32, pinerr := 0#32
        bitidx := 0#6, phase := .bDirOut } }) ∧
    (exec .beginTxn s = .next { s with
      pinAns := none, pinReq := some 0x00000009#32
      dec := { s.dec with
        op := 0x2#4, wlvl := .low, wmax := 0#24, busy := true, done := false, ok := false, err := .none
        eidx := 0#6, ecomp := 0#8, erecv := 0#8, ephase := .idle, edur := 0#32, pinerr := 0#32
        bitidx := 0#6, phase := .bDirOut } }) ∧
    (exec .idle s = .next { s with
      pinAns := none, pinReq := some 0x00000009#32
      dec := { s.dec with
        op := 0x7#4, wlvl := .low, wmax := 0#24, busy := true, done := false, ok := false, err := .none
        eidx := 0#6, ecomp := 0#8, erecv := 0#8, ephase := .idle, edur := 0#32, pinerr := 0#32
        bitidx := 0#6, phase := .idleDir } })

/-- R194 for `ACKCHK`, `SAMPLE`, `VALIDATE` and `WAITL`: the first request takes its time from the configuration or, for
`WAITL`, from the command word; `VALIDATE` issues none; `SAMPLE` clears `raw`. -/
def Obligations.AckchkSampleValidateWaitlAreAccepted : Prop :=
  ∀ s : State, s.dec.busy = false →
    (exec .ackchk s = .next { s with
      pinAns := none, pinReq := some (encode (.waitForLevel .high s.cfg.tAckPhase))
      dec := { s.dec with
        op := 0x3#4, wlvl := .low, wmax := 0#24, busy := true, done := false, ok := false, err := .none
        eidx := 0#6, ecomp := 0#8, erecv := 0#8, ephase := .idle, edur := 0#32, pinerr := 0#32
        bitidx := 0#6, phase := .ackLow } }) ∧
    (exec .sample s = .next { s with
      pinAns := none, pinReq := some (encode (.waitForLevel .high s.cfg.tBitLow))
      dec := { s.dec with
        op := 0x4#4, wlvl := .low, wmax := 0#24, busy := true, done := false, ok := false, err := .none
        eidx := 0#6, ecomp := 0#8, erecv := 0#8, ephase := .idle, edur := 0#32, pinerr := 0#32
        bitidx := 0#6, phase := .bitLow, raw := #v[0#8, 0#8, 0#8, 0#8, 0#8] } }) ∧
    (exec .validate s = .next { s with
      pinAns := none, pinReq := none
      dec := { s.dec with
        op := 0x5#4, wlvl := .low, wmax := 0#24, busy := true, done := false, ok := false, err := .none
        eidx := 0#6, ecomp := 0#8, erecv := 0#8, ephase := .idle, edur := 0#32, pinerr := 0#32
        bitidx := 0#6, phase := .check } }) ∧
    (∀ (l : Level) (t : Nat), t ≤ 2 ^ 24 - 1 →
      exec (.waitl l t) s = .next { s with
        pinAns := none, pinReq := some (encode (.waitForLevel l t))
        dec := { s.dec with
          op := 0x6#4, wlvl := l, wmax := BitVec.ofNat 24 t, busy := true, done := false, ok := false, err := .none
          eidx := 0#6, ecomp := 0#8, erecv := 0#8, ephase := .idle, edur := 0#32, pinerr := 0#32
          bitidx := 0#6, phase := .waitL } })

/-- R76, R194: a command that arrives while busy is discarded with `OVR`, and the command in flight is unchanged. -/
def Obligations.CommandWhileBusyIsTurnedAway : Prop :=
  ∀ (i : Instr) (s : State), i.format = .cmd → s.dec.busy = true →
    exec i s = .next { s with dec := { s.dec with ovr := true } }

/-! ## Pin steps that raise no error (R123 to R127, R197) -/

/-- R123, R197: `SET_LEVEL` answered `Ok` sets `plvl`; its three phases go on. -/
def Obligations.SetLevelAnsweredOk : Prop :=
  ∀ s : State, s.answered .ok →
    (s.dec.phase = .bLow → exec (.setLevel .low) s = .next { s with
      dec := { s.dec with plvl := .low, phase := .bHold }
      pinAns := none, pinReq := some (encode (.delay s.cfg.holdUs)) }) ∧
    (s.dec.phase = .bHigh → exec (.setLevel .high) s = .next { s with
      dec := { s.dec with plvl := .high, phase := .bDirIn }
      pinAns := none, pinReq := some 0x00000001#32 }) ∧
    (s.dec.phase = .idleLvl → exec (.setLevel .high) s = .next { s with
      dec := { s.dec with plvl := .high, phase := .idle, busy := false, done := true, ok := true, err := .none }
      pinAns := none, pinReq := none })

/-- R125, R197: `SET_DIRECTION` answered `Ok` sets `pdir`; its three phases go on. -/
def Obligations.SetDirectionAnsweredOk : Prop :=
  ∀ s : State, s.answered .ok →
    (s.dec.phase = .bDirOut → exec (.setDirection .output) s = .next { s with
      dec := { s.dec with pdir := .output, phase := .bLow }
      pinAns := none, pinReq := some 0x00000000#32 }) ∧
    (s.dec.phase = .bDirIn → exec (.setDirection .input) s = .next { s with
      dec := { s.dec with pdir := .input, phase := .ackStart }
      pinAns := none, pinReq := some (encode (.waitForLevel .low s.cfg.tAckStart)) }) ∧
    (s.dec.phase = .idleDir → exec (.setDirection .output) s = .next { s with
      dec := { s.dec with pdir := .output, phase := .idleLvl }
      pinAns := none, pinReq := some 0x00000008#32 })

/-- R127, R197: the start-signal hold answered `Ok`. -/
def Obligations.DelayAnsweredOk : Prop :=
  ∀ s : State, s.answered .ok → s.dec.phase = .bHold →
    exec (.delay s.cfg.holdUs) s = .next { s with
      dec := { s.dec with phase := .bHigh }
      pinAns := none, pinReq := some 0x00000008#32 }

/-- The model's choice (log entry 7), for requests that are not the current phase's own, which no run from reset issues:
each has its own effect (R123 to R127), and the command does not move. `READ_LEVEL` is such a request in every phase
(R126). The port then shows the phase's own request. -/
def Obligations.ForeignRequestHasItsOwnEffectOnly : Prop :=
  ∀ s : State,
    (∀ l, s.answered .ok → requestOf s.cfg s.dec ≠ some (.setLevel l) →
      exec (.setLevel l) s = .next { s with
        dec := { s.dec with plvl := l }, pinAns := none, pinReq := (requestOf s.cfg s.dec).map encode }) ∧
    (∀ dir, s.answered .ok → requestOf s.cfg s.dec ≠ some (.setDirection dir) →
      exec (.setDirection dir) s = .next { s with
        dec := { s.dec with pdir := dir }, pinAns := none, pinReq := (requestOf s.cfg s.dec).map encode }) ∧
    (∀ t, s.answered .ok → requestOf s.cfg s.dec ≠ some (.delay t) →
      exec (.delay t) s = .next { s with pinAns := none, pinReq := (requestOf s.cfg s.dec).map encode }) ∧
    (∀ l t d, s.answered (.okDur d) → requestOf s.cfg s.dec ≠ some (.waitForLevel l t) →
      exec (.waitForLevel l t) s = .next { s with
        dec := { s.dec with dur := d }, pinAns := none, pinReq := (requestOf s.cfg s.dec).map encode }) ∧
    (∀ l, s.answered (.okLevel l) →
      exec .readLevel s = .next { s with pinAns := none, pinReq := (requestOf s.cfg s.dec).map encode })

/-- R124, R197: `WAIT_FOR_LEVEL` answered `OkDur(d)` in the handshake phases and in `WAITL`. -/
def Obligations.HandshakeWaitAnsweredInBand : Prop :=
  ∀ (s : State) (d : Word), s.answered (.okDur d) →
    (s.dec.phase = .ackStart → s.dec.op = 0x2#4 →
      exec (.waitForLevel .low s.cfg.tAckStart) s = .next { s with
        dec := { s.dec with dur := d, phase := .idle, busy := false, done := true, ok := true, err := .none }
        pinAns := none, pinReq := none }) ∧
    (s.dec.phase = .ackStart → s.dec.op = 0x1#4 →
      exec (.waitForLevel .low s.cfg.tAckStart) s = .next { s with
        dec := { s.dec with dur := d, phase := .ackLow }
        pinAns := none, pinReq := some (encode (.waitForLevel .high s.cfg.tAckPhase)) }) ∧
    (s.dec.phase = .ackLow → s.cfg.ackMin ≤ d.toNat → d.toNat ≤ s.cfg.ackMax →
      exec (.waitForLevel .high s.cfg.tAckPhase) s = .next { s with
        dec := { s.dec with dur := d, phase := .ackHigh }
        pinAns := none, pinReq := some (encode (.waitForLevel .low s.cfg.tAckPhase)) }) ∧
    (s.dec.phase = .ackHigh → s.cfg.ackMin ≤ d.toNat → d.toNat ≤ s.cfg.ackMax → s.dec.op = 0x3#4 →
      exec (.waitForLevel .low s.cfg.tAckPhase) s = .next { s with
        dec := { s.dec with dur := d, phase := .idle, busy := false, done := true, ok := true, err := .none }
        pinAns := none, pinReq := none }) ∧
    (s.dec.phase = .ackHigh → s.cfg.ackMin ≤ d.toNat → d.toNat ≤ s.cfg.ackMax → s.dec.op = 0x1#4 →
      exec (.waitForLevel .low s.cfg.tAckPhase) s = .next { s with
        dec := { s.dec with dur := d, raw := #v[0#8, 0#8, 0#8, 0#8, 0#8], bitidx := 0#6, phase := .bitLow }
        pinAns := none, pinReq := some (encode (.waitForLevel .high s.cfg.tBitLow)) }) ∧
    (s.dec.phase = .waitL →
      exec (.waitForLevel s.dec.wlvl s.dec.wmax.toNat) s = .next { s with
        dec := { s.dec with dur := d, phase := .idle, busy := false, done := true, ok := true, err := .none }
        pinAns := none, pinReq := none })

/-- R124, R162, R197: `WAIT_FOR_LEVEL` answered `OkDur(d)` in the sampling phases, with a classified high phase. -/
def Obligations.SamplingWaitAnsweredInBand : Prop :=
  ∀ (s : State) (d : Word), s.answered (.okDur d) →
    (s.dec.phase = .bitLow →
      exec (.waitForLevel .high s.cfg.tBitLow) s = .next { s with
        dec := { s.dec with dur := d, phase := .bitHigh }
        pinAns := none, pinReq := some (encode (.waitForLevel .low s.cfg.tBitHigh)) }) ∧
    (∀ (k : Fin 5) (c : Bool), s.dec.phase = .bitHigh → s.dec.bitidx.toNat / 8 = k.val →
      classify s.cfg d = some c →
      let raw' := s.dec.raw.set k.val (BitVec.ofNat 8 (2 * s.dec.raw[k.val].toNat + c.toNat))
      (s.dec.bitidx.toNat < 39 →
        exec (.waitForLevel .low s.cfg.tBitHigh) s = .next { s with
          dec := { s.dec with dur := d, raw := raw', bitidx := s.dec.bitidx + 1#6, phase := .bitLow }
          pinAns := none, pinReq := some (encode (.waitForLevel .high s.cfg.tBitLow)) }) ∧
      (s.dec.bitidx.toNat = 39 → s.dec.op = 0x4#4 →
        exec (.waitForLevel .low s.cfg.tBitHigh) s = .next { s with
          dec := { s.dec with
            dur := d, raw := raw', bitidx := 40#6, phase := .idle, busy := false, done := true, ok := true, err := .none }
          pinAns := none, pinReq := none }) ∧
      (s.dec.bitidx.toNat = 39 → s.dec.op = 0x1#4 →
        exec (.waitForLevel .low s.cfg.tBitHigh) s = .next { s with
          dec := { s.dec with dur := d, raw := raw', bitidx := 40#6, phase := .check }
          pinAns := none, pinReq := none }))

/-! ## Errors (R212 to R218) -/

/-- R213: a `Timeout` in an acknowledgment phase is `AckTimeout`, with the bound that elapsed. -/
def Obligations.AcknowledgmentTimeoutIsRecorded : Prop :=
  ∀ s : State, s.answered .timeout →
    let failed := fun (p : Phase) (bound : Nat) => { s with
      dec := { s.dec with
        err := .ackTimeout, ephase := p, edur := BitVec.ofNat 32 bound, eidx := 0#6, ecomp := 0#8, erecv := 0#8
        pinerr := 0#32, phase := .idle, busy := false, done := true, ok := false }
      pinAns := none, pinReq := none : State }
    (s.dec.phase = .ackStart →
      exec (.waitForLevel .low s.cfg.tAckStart) s = .next (failed .ackStart s.cfg.tAckStart)) ∧
    (s.dec.phase = .ackLow →
      exec (.waitForLevel .high s.cfg.tAckPhase) s = .next (failed .ackLow s.cfg.tAckPhase)) ∧
    (s.dec.phase = .ackHigh →
      exec (.waitForLevel .low s.cfg.tAckPhase) s = .next (failed .ackHigh s.cfg.tAckPhase))

/-- R215: a `Timeout` in a sampling phase or in `WAITL` is `LevelTimeout`, with the bit index and the bound. -/
def Obligations.LevelTimeoutIsRecorded : Prop :=
  ∀ s : State, s.answered .timeout →
    let failed := fun (p : Phase) (i : BitVec 6) (bound : Word) => { s with
      dec := { s.dec with
        err := .levelTimeout, ephase := p, edur := bound, eidx := i, ecomp := 0#8, erecv := 0#8
        pinerr := 0#32, phase := .idle, busy := false, done := true, ok := false }
      pinAns := none, pinReq := none : State }
    (s.dec.phase = .bitLow →
      exec (.waitForLevel .high s.cfg.tBitLow) s =
        .next (failed .bitLow s.dec.bitidx (BitVec.ofNat 32 s.cfg.tBitLow))) ∧
    (s.dec.phase = .bitHigh →
      exec (.waitForLevel .low s.cfg.tBitHigh) s =
        .next (failed .bitHigh s.dec.bitidx (BitVec.ofNat 32 s.cfg.tBitHigh))) ∧
    (s.dec.phase = .waitL →
      exec (.waitForLevel s.dec.wlvl s.dec.wmax.toNat) s = .next (failed .waitL 0#6 (s.dec.wmax.setWidth 32)))

/-- R214, R216: a measured duration out of band is `AckPulseOutOfRange` or `BitOutOfRange`, with the duration. In a
sampling phase the bit index is below 40 in every state that meets the invariant (`Decoder.Consistent`). -/
def Obligations.DurationOutOfBandIsRecorded : Prop :=
  ∀ (s : State) (d : Word), s.answered (.okDur d) →
    let failed := fun (e : ErrKind) (p : Phase) (i : BitVec 6) => { s with
      dec := { s.dec with
        dur := d, err := e, ephase := p, edur := d, eidx := i, ecomp := 0#8, erecv := 0#8
        pinerr := 0#32, phase := .idle, busy := false, done := true, ok := false }
      pinAns := none, pinReq := none : State }
    (¬ (s.cfg.ackMin ≤ d.toNat ∧ d.toNat ≤ s.cfg.ackMax) →
      (s.dec.phase = .ackLow →
        exec (.waitForLevel .high s.cfg.tAckPhase) s = .next (failed .ackPulseOutOfRange .ackLow 0#6)) ∧
      (s.dec.phase = .ackHigh →
        exec (.waitForLevel .low s.cfg.tAckPhase) s = .next (failed .ackPulseOutOfRange .ackHigh 0#6))) ∧
    (¬ (s.cfg.zeroMin ≤ d.toNat ∧ d.toNat ≤ s.cfg.zeroMax) → ¬ (s.cfg.oneMin ≤ d.toNat ∧ d.toNat ≤ s.cfg.oneMax) →
      s.dec.phase = .bitHigh → s.dec.bitidx.toNat < 40 →
        exec (.waitForLevel .low s.cfg.tBitHigh) s = .next (failed .bitOutOfRange .bitHigh s.dec.bitidx))

/-- R218: any pin request answered `Fault(e)` ends the command with `PinFault`, and the check step never does. That a
request which is not the phase's own does so too, in every phase, is the model's choice (log entry 7). -/
def Obligations.PinFaultIsRecorded : Prop :=
  (∀ (i : Instr) (s : State) (e : Word), i.format = .pinreq → s.answered (.fault e) →
    exec i s = .next { s with
      dec := { s.dec with
        err := .pinFault, ephase := s.dec.phase, pinerr := e
        eidx := if s.dec.phase = .bitLow ∨ s.dec.phase = .bitHigh then s.dec.bitidx else 0#6
        ecomp := 0#8, erecv := 0#8, edur := 0#32, phase := .idle, busy := false, done := true, ok := false }
      pinAns := none, pinReq := none }) ∧
  (∀ s : State, (internalStep s).dec.err = .pinFault → s.dec.err = .pinFault)

/-- R122: an answer outside the request's domain is not a move of the environment, and a reserved record is none. -/
def Obligations.AnswerOutsideDomainIsRefused : Prop :=
  ∀ (i : Instr) (s : State), i.format = .pinreq →
    (∀ a : Answer, s.answered a →
      (exec i s = .refused .answerOutsideDomain ↔
        ¬ ((∃ e, a = .fault e) ∨
           (a = .ok ∧ ((∃ l, i = .setLevel l) ∨ (∃ d, i = .setDirection d) ∨ ∃ t, i = .delay t)) ∨
           ((∃ l, a = .okLevel l) ∧ i = .readLevel) ∨
           ((a = .timeout ∨ ∃ d, a = .okDur d) ∧ ∃ l t, i = .waitForLevel l t)))) ∧
    (∀ r : AnswerRec, s.pinAns = some r → 5 ≤ r.kind.toNat → exec i s = .refused .reservedAnswer)

/-! ## The checksum (R147, R161, R180 to R182, R217) -/

/-- R181: the checksum is the sum of the four bytes modulo 256. -/
def Obligations.ChecksumIsTheSumModulo256 : Prop :=
  ∀ b0 b1 b2 b3 : Byte, (checksum b0 b1 b2 b3).toNat = (b0.toNat + b1.toNat + b2.toNat + b3.toNat) % 256

/-- R147, R161: the bands are inclusive, under a legal configuration the order of the two tests does not matter, and the
default bands and the source's fixed points are as the rules give them. -/
def Obligations.BandsAreInclusiveAndDisjoint : Prop :=
  (Config.default.ackMin = 75 ∧ Config.default.ackMax = 85 ∧ Config.default.zeroMin = 21 ∧ Config.default.zeroMax = 33 ∧
   Config.default.oneMin = 65 ∧ Config.default.oneMax = 75 ∧ classify Config.default 27#32 = some false ∧
   classify Config.default 70#32 = some true ∧ classify Config.default 48#32 = none) ∧
  ∀ (cfg : Config) (d : Word),
    (ackOk cfg d = true ↔ cfg.ackMin ≤ d.toNat ∧ d.toNat ≤ cfg.ackMax) ∧
    (cfg.legal = true →
      (classify cfg d = some false ↔ cfg.zeroMin ≤ d.toNat ∧ d.toNat ≤ cfg.zeroMax) ∧
      (classify cfg d = some true ↔ cfg.oneMin ≤ d.toNat ∧ d.toNat ≤ cfg.oneMax) ∧
      (classify cfg d = none ↔
        ¬ (cfg.zeroMin ≤ d.toNat ∧ d.toNat ≤ cfg.zeroMax) ∧ ¬ (cfg.oneMin ≤ d.toNat ∧ d.toNat ≤ cfg.oneMax)))

/-- R180, R182, R217: the check step compares the sum modulo 256 with the fifth byte; it builds the Measurement and
completes, or records both checksums and leaves the Measurement. -/
def Obligations.CheckStepBuildsTheMeasurementOrFails : Prop :=
  ∀ (s : State) (rest : List Move), s.cfg.legal = true → s.dec.phase = .check → s.script = .internal :: rest →
    let sum := (s.dec.raw[0].toNat + s.dec.raw[1].toNat + s.dec.raw[2].toNat + s.dec.raw[3].toNat) % 256
    (sum = s.dec.raw[4].toNat → step s = .next { s with
      script := rest, pinAns := none, pinReq := none
      dec := { s.dec with
        meas := ⟨s.dec.raw[0], s.dec.raw[1], s.dec.raw[2], s.dec.raw[3]⟩, mvalid := true
        phase := .idle, busy := false, done := true, ok := true, err := .none } }) ∧
    (sum ≠ s.dec.raw[4].toNat → step s = .next { s with
      script := rest, pinAns := none, pinReq := none
      dec := { s.dec with
        err := .checksumMismatch, ephase := .check, ecomp := BitVec.ofNat 8 sum, erecv := s.dec.raw[4]
        eidx := 0#6, edur := 0#32, pinerr := 0#32, phase := .idle, busy := false, done := true, ok := false } })

/-! ## Reset and waiting -/

/-- R54, R240: reset, in any state, sets every field of the decoder's record to 0 and abandons the outstanding request,
whose answer then causes no step; the state after reset has that record too. That the configuration, the value of the
last host read and the later moves stay is the model's reading (log entry 16). -/
def Obligations.ResetClearsTheBlock : Prop :=
  let zero : Decoder :=
    { phase := .idle, bitidx := 0#6, op := 0#4, wlvl := .low, wmax := 0#24, raw := #v[0#8, 0#8, 0#8, 0#8, 0#8]
      meas := ⟨0#8, 0#8, 0#8, 0#8⟩, mvalid := false, busy := false, done := false, ok := false, err := .none
      eidx := 0#6, ecomp := 0#8, erecv := 0#8, ephase := .idle, edur := 0#32, pinerr := 0#32, dur := 0#32
      ill := false, ovr := false, pdir := .input, plvl := .low }
  State.reset.dec = zero ∧
  (∀ (s : State) (rest : List Move), s.cfg.legal = true → s.script = .reset :: rest →
    step s = .next { s with dec := zero, pinReq := none, pinAns := none, script := rest }) ∧
  (∀ (s : State) (r : AnswerRec) (rest : List Move), s.cfg.legal = true → s.script = .reset :: .answer r :: rest →
    runs 2 s = .next { s with dec := zero, pinReq := none, pinAns := none, script := rest })

/-- R121, R132, R196: a request without an answer takes no step, and with no move left the block waits in its phase;
only the check step needs no other agent, and is taken, with either outcome. How a state with no move left steps is the
model's choice (log entry 3). -/
def Obligations.UnansweredRequestWaits : Prop :=
  (∀ (i : Instr) (s : State), i.format = .pinreq → s.pinAns = none → exec i s = .next s) ∧
  (∀ s : State, s.cfg.legal = true → s.script = [] → s.dec.phase ≠ .check → step s = .next s) ∧
  (∀ s : State, s.cfg.legal = true → s.script = [] → s.dec.phase = .check →
    let sum := (s.dec.raw[0].toNat + s.dec.raw[1].toNat + s.dec.raw[2].toNat + s.dec.raw[3].toNat) % 256
    (sum = s.dec.raw[4].toNat → step s = .next { s with
      pinAns := none, pinReq := none
      dec := { s.dec with
        meas := ⟨s.dec.raw[0], s.dec.raw[1], s.dec.raw[2], s.dec.raw[3]⟩, mvalid := true
        phase := .idle, busy := false, done := true, ok := true, err := .none } }) ∧
    (sum ≠ s.dec.raw[4].toNat → step s = .next { s with
      pinAns := none, pinReq := none
      dec := { s.dec with
        err := .checksumMismatch, ephase := .check, ecomp := BitVec.ofNat 8 sum, erecv := s.dec.raw[4]
        eidx := 0#6, edur := 0#32, pinerr := 0#32, phase := .idle, busy := false, done := true, ok := false } }))

/-- R77, R196: while the block is idle, no answer and no internal move changes anything of it. That an answer with
nothing outstanding is dropped is the model's choice (log entry 10). -/
def Obligations.IdleBlockTakesNoDecoderStep : Prop :=
  ∀ (s : State) (m : Move) (rest : List Move), s.Inv → s.dec.phase = .idle → s.script = m :: rest →
    m = .internal ∨ (∃ r, m = .answer r) → step s = .next { s with script := rest }

/-! ## Invariants -/

/-- The state after reset meets the invariant (R54, R55). -/
def Obligations.ResetStateIsConsistent : Prop := State.reset.Inv ∧ State.reset.dec.SamplingFrame

/-- R55: every step keeps the invariant: (a) to (f) of R55, the record's clearing, the command of each phase, the error of
each command, and on the pin port exactly the request of the current phase. -/
def Obligations.EveryStepKeepsTheInvariant : Prop :=
  ∀ s t : State, s.Inv → step s = .next t → t.Inv

/-- R162: in the sampling phases the bytes of `raw` have 0s above the bits accepted so far, and the bytes after the
current one are 0; every step keeps it. -/
def Obligations.EveryStepKeepsThePartialFrame : Prop :=
  ∀ s t : State, s.Inv → s.dec.SamplingFrame → step s = .next t → t.dec.SamplingFrame

/-- R10, R48: no step changes the configuration, nor what a configuration register reads. -/
def Obligations.NoStepChangesTheConfiguration : Prop :=
  ∀ s t : State, step s = .next t →
    t.cfg = s.cfg ∧ ∀ idx, 9 ≤ idx → idx ≤ 14 → readRegister t.cfg t.dec idx = readRegister s.cfg s.dec idx

/-- R41: `ILL` and `OVR` are sticky until reset; `ILL` is set only by an illegal word written to `CMD` while idle, `OVR`
only by a write of `CMD`, `RAW0` or `RAW1` while busy; and such a step changes neither `DONE`, `OK` nor `ERR`. -/
def Obligations.IllegalAndOverrunFlagsAreSticky : Prop :=
  ∀ s t : State, step s = .next t →
    ((∀ rest, s.script ≠ .reset :: rest) →
      (s.dec.ill = true → t.dec.ill = true) ∧ (s.dec.ovr = true → t.dec.ovr = true)) ∧
    (s.dec.ill = false → t.dec.ill = true →
      (∃ v rest, s.script = .host (.memWrite 0 4 v) :: rest ∧ ∀ i, decode .cmd v ≠ .ok i) ∧ s.dec.busy = false ∧
      t.dec.done = s.dec.done ∧ t.dec.ok = s.dec.ok ∧ t.dec.err = s.dec.err) ∧
    (s.dec.ovr = false → t.dec.ovr = true →
      (∃ idx v rest, s.script = .host (.memWrite idx 4 v) :: rest ∧ (idx = 0 ∨ idx = 6 ∨ idx = 7)) ∧
      s.dec.busy = true ∧ t.dec.done = s.dec.done ∧ t.dec.ok = s.dec.ok ∧ t.dec.err = s.dec.err)

/-- R35, R36, R85, R182: outside reset, `meas` and `mvalid` change only in the check step of a frame that passes, which
writes the four data bytes and completes the command in the same step. -/
def Obligations.MeasurementIsWrittenOnlyByAPassedCheck : Prop :=
  ∀ s t : State, step s = .next t → (∀ rest, s.script ≠ .reset :: rest) →
    (t.dec.meas ≠ s.dec.meas ∨ t.dec.mvalid ≠ s.dec.mvalid) →
    s.dec.phase = .check ∧
    (s.dec.raw[0].toNat + s.dec.raw[1].toNat + s.dec.raw[2].toNat + s.dec.raw[3].toNat) % 256 = s.dec.raw[4].toNat ∧
    t.dec.meas = ⟨s.dec.raw[0], s.dec.raw[1], s.dec.raw[2], s.dec.raw[3]⟩ ∧ t.dec.mvalid = true ∧
    t.dec.done = true ∧ t.dec.ok = true ∧ t.dec.err = .none

/-- R219: a step that ends a command with an error leaves `meas` and `mvalid`. -/
def Obligations.NoErrorWritesTheMeasurement : Prop :=
  ∀ s t : State, step s = .next t → s.dec.busy = true → t.dec.done = true → t.dec.ok = false →
    t.dec.meas = s.dec.meas ∧ t.dec.mvalid = s.dec.mvalid

/-- R105, R191, R195, R197: from a phase the sequencer goes only to the next phase of its sequence, or it ends the
command, or it stays; a command starts only from `IDLE`, in its first phase. So nothing is retried or resumed. -/
def Obligations.PhasesFollowTheSequences : Prop :=
  ∀ s t : State, s.Inv → step s = .next t →
    t.dec.phase = s.dec.phase ∨ t.dec.phase = .idle ∨ phaseFollows s.dec.phase t.dec.phase = true ∨
    (s.dec.phase = .idle ∧ ∃ i rest, s.script = .host (.memWrite 0 4 (encode i)) :: rest ∧
      firstPhase i = some t.dec.phase)

/-- R199: sampling always begins at bit 0 with `raw` cleared; nothing of an earlier transfer is continued. -/
def Obligations.SamplingBeginsWithAClearedFrame : Prop :=
  ∀ s t : State, s.Inv → step s = .next t → t.dec.phase = .bitLow →
    s.dec.phase ≠ .bitLow → s.dec.phase ≠ .bitHigh →
    t.dec.raw = #v[0#8, 0#8, 0#8, 0#8, 0#8] ∧ t.dec.bitidx = 0#6

/-- R46, R53: no rule of the block reads `DUR`. Two states that differ in it alone take steps that differ in it alone,
unless the host reads `DUR`: each keeps its own value, or both have the same new one. -/
def Obligations.DurationCopyIsNeverUsed : Prop :=
  ∀ (s t : State) (x : Word), step s = .next t → (∀ rest, s.script ≠ .host (.memRead 5 4) :: rest) →
    ∃ y, step { s with dec := { s.dec with dur := x } } = .next { t with dec := { t.dec with dur := y } } ∧
      ((t.dec.dur = s.dec.dur ∧ y = x) ∨ y = t.dec.dur)

/-! ## Whole commands -/

/-- R140, R141, R142: `BEGIN` with every request answered and the acknowledgment begun. -/
def Obligations.BeginRunsToCompletion : Prop :=
  ∀ (s : State) (d : Word) (rest : List Move), s.cfg.legal = true → s.dec.busy = false →
    s.script = .host (.memWrite 0 4 0x00000002#32) :: (answers [.ok, .ok, .ok, .ok, .ok, .okDur d] ++ rest) →
    runs 7 s = .next { s with
      script := rest, pinAns := none, pinReq := none
      dec := { s.dec with
        op := 0x2#4, wlvl := .low, wmax := 0#24, phase := .idle, bitidx := 0#6, busy := false, done := true, ok := true
        err := .none, eidx := 0#6, ecomp := 0#8, erecv := 0#8, ephase := .idle, edur := 0#32, pinerr := 0#32
        pdir := .input, plvl := .high, dur := d } } ∧
    issued 7 s = [0x00000009#32, 0x00000000#32, encode (.delay s.cfg.holdUs), 0x00000008#32, 0x00000001#32,
      encode (.waitForLevel .low s.cfg.tAckStart)]

/-- R143, R145, R146, R180, R193: `WAITL`, `ACKCHK`, `VALIDATE` and `IDLE` run to success. -/
def Obligations.ShortCommandsRunToCompletion : Prop :=
  ∀ (s : State) (rest : List Move), s.cfg.legal = true → s.dec.busy = false →
    let finished := fun (op : BitVec 4) (l : Level) (w : BitVec 24) (d : Decoder) => { s with
      script := rest, pinAns := none, pinReq := none
      dec := { d with
        op := op, wlvl := l, wmax := w, phase := .idle, bitidx := 0#6, busy := false, done := true, ok := true
        err := .none, eidx := 0#6, ecomp := 0#8, erecv := 0#8, ephase := .idle, edur := 0#32, pinerr := 0#32 } : State }
    (∀ (l : Level) (t : Nat) (d : Word), t ≤ 2 ^ 24 - 1 →
      s.script = .host (.memWrite 0 4 (encode (.waitl l t))) :: (answers [.okDur d] ++ rest) →
      runs 2 s = .next (finished 0x6#4 l (BitVec.ofNat 24 t) { s.dec with dur := d })) ∧
    (∀ d1 d2 : Word, ackOk s.cfg d1 = true → ackOk s.cfg d2 = true →
      s.script = .host (.memWrite 0 4 0x00000003#32) :: (answers [.okDur d1, .okDur d2] ++ rest) →
      runs 3 s = .next (finished 0x3#4 .low 0#24 { s.dec with dur := d2 })) ∧
    (frameSum s.dec.raw = s.dec.raw[4] →
      s.script = .host (.memWrite 0 4 0x00000005#32) :: .internal :: rest →
      runs 2 s = .next (finished 0x5#4 .low 0#24 { s.dec with meas := measureOf s.dec.raw, mvalid := true })) ∧
    (s.script = .host (.memWrite 0 4 0x00000007#32) :: (answers [.ok, .ok] ++ rest) →
      runs 3 s = .next (finished 0x7#4 .low 0#24 { s.dec with pdir := .output, plvl := .high }))

/-- R78, R160 to R163: `SAMPLE`, answered with 40 pairs of durations whose high phases carry a frame, leaves exactly that
frame in `raw`, whatever the low phases are, and issues 80 requests. -/
def Obligations.SampleCollectsTheFrame : Prop :=
  ∀ (s : State) (f : Frame) (ds : List (Word × Word)) (last : Word × Word) (rest : List Move),
    s.cfg.legal = true → s.dec.busy = false → carries s.cfg f ds → ds[39]? = some last →
    s.script = .host (.memWrite 0 4 0x00000004#32) :: (answers (bitAnswers ds) ++ rest) →
    runs 81 s = .next { s with
      script := rest, pinAns := none, pinReq := none
      dec := { s.dec with
        op := 0x4#4, wlvl := .low, wmax := 0#24, phase := .idle, bitidx := 40#6, busy := false, done := true, ok := true
        err := .none, eidx := 0#6, ecomp := 0#8, erecv := 0#8, ephase := .idle, edur := 0#32, pinerr := 0#32
        raw := f, dur := last.2 } } ∧
    (issued 81 s).length = 80

/-- R190, R191, R217: a complete `READ` whose answers carry a frame. It ends with the frame's Measurement if the fifth byte is
the checksum of the first four, and otherwise with `ChecksumMismatch` and the Measurement it had; 88 requests are issued. -/
def Obligations.ReadDeliversTheFrameOrTheMismatch : Prop :=
  ∀ (s : State) (f : Frame) (d0 d1 d2 : Word) (ds : List (Word × Word)) (last : Word × Word) (rest : List Move),
    s.cfg.legal = true → s.dec.busy = false → ackOk s.cfg d1 = true → ackOk s.cfg d2 = true →
    carries s.cfg f ds → ds[39]? = some last →
    s.script = .host (.memWrite 0 4 0x00000001#32) ::
      (answers ([.ok, .ok, .ok, .ok, .ok, .okDur d0, .okDur d1, .okDur d2] ++ bitAnswers ds) ++ .internal :: rest) →
    let sum := (f[0].toNat + f[1].toNat + f[2].toNat + f[3].toNat) % 256
    let sampled : Decoder := { s.dec with
      op := 0x1#4, wlvl := .low, wmax := 0#24, phase := .idle, bitidx := 40#6, busy := false, done := true
      eidx := 0#6, edur := 0#32, pinerr := 0#32, raw := f, dur := last.2, pdir := .input, plvl := .high }
    (sum = f[4].toNat → runs 90 s = .next { s with
      script := rest, pinAns := none, pinReq := none
      dec := { sampled with
        ok := true, err := .none, ephase := .idle, ecomp := 0#8, erecv := 0#8
        meas := ⟨f[0], f[1], f[2], f[3]⟩, mvalid := true } }) ∧
    (sum ≠ f[4].toNat → runs 90 s = .next { s with
      script := rest, pinAns := none, pinReq := none
      dec := { sampled with
        ok := false, err := .checksumMismatch, ephase := .check, ecomp := BitVec.ofNat 8 sum, erecv := f[4] } }) ∧
    (issued 90 s).length = 88

/-- 95_test_vectors.md S5, S6 for every frame: `READ` on the ideal environment and the reference train of a frame, with the
default configuration, ends after 89 steps with the frame's Measurement or with the two checksums. -/
def Obligations.ReadOnTheReferenceTrain : Prop :=
  ∀ (s a : State) (f : Frame), s.cfg = Config.default → s.dec.busy = false → exec .read s = .next a →
    ∃ t, idealRun (refTrain f) 89 0 a = .next t ∧ t.dec.busy = false ∧ t.dec.done = true ∧ t.dec.raw = f ∧
      (frameSum f = f[4] → t.dec.ok = true ∧ t.dec.meas = measureOf f ∧ t.dec.mvalid = true) ∧
      (frameSum f ≠ f[4] → t.dec.ok = false ∧ t.dec.err = .checksumMismatch ∧
        t.dec.ecomp = frameSum f ∧ t.dec.erecv = f[4] ∧ t.dec.meas = s.dec.meas ∧ t.dec.mvalid = s.dec.mvalid)

/-- R132, R135, R195: a command in flight ends, within 89 answers and check steps, once the environment answers every
request from its domain, with any answers. That it answers at all is the assumption of R132. -/
def Obligations.AnsweredCommandEnds : Prop :=
  ∀ (env : Nat → Instr → Answer) (s : State),
    (∀ k i, i.format = .pinreq → inDomain i (env k i) = true) → s.Inv → s.dec.busy = true →
    ∃ n t, n ≤ 89 ∧ answeredRun env n 0 s = .next t ∧ t.dec.busy = false ∧ t.dec.done = true
end

