-- ==== Sys2Proof/Laws/State.lean ====
section
/-! SUPPORT. One lemma for each field and each update of the decoder's record and of the state, true by `rfl`, so that no
later proof unfolds a record update. -/

namespace Sys2Proof.Machine

/-! ## `Decoder.finishOk` -/

@[simp] theorem Decoder.finishOk_phase (d : Decoder) : d.finishOk.phase = .idle := rfl
@[simp] theorem Decoder.finishOk_bitidx (d : Decoder) : d.finishOk.bitidx = d.bitidx := rfl
@[simp] theorem Decoder.finishOk_op (d : Decoder) : d.finishOk.op = d.op := rfl
@[simp] theorem Decoder.finishOk_wlvl (d : Decoder) : d.finishOk.wlvl = d.wlvl := rfl
@[simp] theorem Decoder.finishOk_wmax (d : Decoder) : d.finishOk.wmax = d.wmax := rfl
@[simp] theorem Decoder.finishOk_raw (d : Decoder) : d.finishOk.raw = d.raw := rfl
@[simp] theorem Decoder.finishOk_meas (d : Decoder) : d.finishOk.meas = d.meas := rfl
@[simp] theorem Decoder.finishOk_mvalid (d : Decoder) : d.finishOk.mvalid = d.mvalid := rfl
@[simp] theorem Decoder.finishOk_busy (d : Decoder) : d.finishOk.busy = false := rfl
@[simp] theorem Decoder.finishOk_done (d : Decoder) : d.finishOk.done = true := rfl
@[simp] theorem Decoder.finishOk_ok (d : Decoder) : d.finishOk.ok = true := rfl
@[simp] theorem Decoder.finishOk_err (d : Decoder) : d.finishOk.err = .none := rfl
@[simp] theorem Decoder.finishOk_eidx (d : Decoder) : d.finishOk.eidx = d.eidx := rfl
@[simp] theorem Decoder.finishOk_ecomp (d : Decoder) : d.finishOk.ecomp = d.ecomp := rfl
@[simp] theorem Decoder.finishOk_erecv (d : Decoder) : d.finishOk.erecv = d.erecv := rfl
@[simp] theorem Decoder.finishOk_ephase (d : Decoder) : d.finishOk.ephase = d.ephase := rfl
@[simp] theorem Decoder.finishOk_edur (d : Decoder) : d.finishOk.edur = d.edur := rfl
@[simp] theorem Decoder.finishOk_pinerr (d : Decoder) : d.finishOk.pinerr = d.pinerr := rfl
@[simp] theorem Decoder.finishOk_dur (d : Decoder) : d.finishOk.dur = d.dur := rfl
@[simp] theorem Decoder.finishOk_ill (d : Decoder) : d.finishOk.ill = d.ill := rfl
@[simp] theorem Decoder.finishOk_ovr (d : Decoder) : d.finishOk.ovr = d.ovr := rfl
@[simp] theorem Decoder.finishOk_pdir (d : Decoder) : d.finishOk.pdir = d.pdir := rfl
@[simp] theorem Decoder.finishOk_plvl (d : Decoder) : d.finishOk.plvl = d.plvl := rfl

/-! ## `Decoder.raise` -/

@[simp] theorem Decoder.raise_phase (e : ProtocolError) (w : Word) (d : Decoder) : (d.raise e w).phase = .idle := rfl
@[simp] theorem Decoder.raise_bitidx (e : ProtocolError) (w : Word) (d : Decoder) : (d.raise e w).bitidx = d.bitidx := rfl
@[simp] theorem Decoder.raise_op (e : ProtocolError) (w : Word) (d : Decoder) : (d.raise e w).op = d.op := rfl
@[simp] theorem Decoder.raise_wlvl (e : ProtocolError) (w : Word) (d : Decoder) : (d.raise e w).wlvl = d.wlvl := rfl
@[simp] theorem Decoder.raise_wmax (e : ProtocolError) (w : Word) (d : Decoder) : (d.raise e w).wmax = d.wmax := rfl
@[simp] theorem Decoder.raise_raw (e : ProtocolError) (w : Word) (d : Decoder) : (d.raise e w).raw = d.raw := rfl
@[simp] theorem Decoder.raise_meas (e : ProtocolError) (w : Word) (d : Decoder) : (d.raise e w).meas = d.meas := rfl
@[simp] theorem Decoder.raise_mvalid (e : ProtocolError) (w : Word) (d : Decoder) : (d.raise e w).mvalid = d.mvalid := rfl
@[simp] theorem Decoder.raise_busy (e : ProtocolError) (w : Word) (d : Decoder) : (d.raise e w).busy = false := rfl
@[simp] theorem Decoder.raise_done (e : ProtocolError) (w : Word) (d : Decoder) : (d.raise e w).done = true := rfl
@[simp] theorem Decoder.raise_ok (e : ProtocolError) (w : Word) (d : Decoder) : (d.raise e w).ok = false := rfl
@[simp] theorem Decoder.raise_err (e : ProtocolError) (w : Word) (d : Decoder) : (d.raise e w).err = e.kind := rfl
@[simp] theorem Decoder.raise_eidx (e : ProtocolError) (w : Word) (d : Decoder) : (d.raise e w).eidx = e.index d.phase d.bitidx := rfl
@[simp] theorem Decoder.raise_ecomp (e : ProtocolError) (w : Word) (d : Decoder) : (d.raise e w).ecomp = e.computed := rfl
@[simp] theorem Decoder.raise_erecv (e : ProtocolError) (w : Word) (d : Decoder) : (d.raise e w).erecv = e.received := rfl
@[simp] theorem Decoder.raise_ephase (e : ProtocolError) (w : Word) (d : Decoder) : (d.raise e w).ephase = d.phase := rfl
@[simp] theorem Decoder.raise_edur (e : ProtocolError) (w : Word) (d : Decoder) : (d.raise e w).edur = w := rfl
@[simp] theorem Decoder.raise_pinerr (e : ProtocolError) (w : Word) (d : Decoder) : (d.raise e w).pinerr = e.pinCode := rfl
@[simp] theorem Decoder.raise_dur (e : ProtocolError) (w : Word) (d : Decoder) : (d.raise e w).dur = d.dur := rfl
@[simp] theorem Decoder.raise_ill (e : ProtocolError) (w : Word) (d : Decoder) : (d.raise e w).ill = d.ill := rfl
@[simp] theorem Decoder.raise_ovr (e : ProtocolError) (w : Word) (d : Decoder) : (d.raise e w).ovr = d.ovr := rfl
@[simp] theorem Decoder.raise_pdir (e : ProtocolError) (w : Word) (d : Decoder) : (d.raise e w).pdir = d.pdir := rfl
@[simp] theorem Decoder.raise_plvl (e : ProtocolError) (w : Word) (d : Decoder) : (d.raise e w).plvl = d.plvl := rfl

/-! ## `Decoder.accept` -/

@[simp] theorem Decoder.accept_phase (v : Word) (p : Phase) (d : Decoder) : (d.accept v p).phase = p := rfl
@[simp] theorem Decoder.accept_bitidx (v : Word) (p : Phase) (d : Decoder) : (d.accept v p).bitidx = 0#6 := rfl
@[simp] theorem Decoder.accept_op (v : Word) (p : Phase) (d : Decoder) : (d.accept v p).op = cmdOp v := rfl
@[simp] theorem Decoder.accept_wlvl (v : Word) (p : Phase) (d : Decoder) : (d.accept v p).wlvl = cmdLvl v := rfl
@[simp] theorem Decoder.accept_wmax (v : Word) (p : Phase) (d : Decoder) : (d.accept v p).wmax = cmdMaxw v := rfl
@[simp] theorem Decoder.accept_raw (v : Word) (p : Phase) (d : Decoder) : (d.accept v p).raw = d.raw := rfl
@[simp] theorem Decoder.accept_meas (v : Word) (p : Phase) (d : Decoder) : (d.accept v p).meas = d.meas := rfl
@[simp] theorem Decoder.accept_mvalid (v : Word) (p : Phase) (d : Decoder) : (d.accept v p).mvalid = d.mvalid := rfl
@[simp] theorem Decoder.accept_busy (v : Word) (p : Phase) (d : Decoder) : (d.accept v p).busy = true := rfl
@[simp] theorem Decoder.accept_done (v : Word) (p : Phase) (d : Decoder) : (d.accept v p).done = false := rfl
@[simp] theorem Decoder.accept_ok (v : Word) (p : Phase) (d : Decoder) : (d.accept v p).ok = false := rfl
@[simp] theorem Decoder.accept_err (v : Word) (p : Phase) (d : Decoder) : (d.accept v p).err = .none := rfl
@[simp] theorem Decoder.accept_eidx (v : Word) (p : Phase) (d : Decoder) : (d.accept v p).eidx = 0#6 := rfl
@[simp] theorem Decoder.accept_ecomp (v : Word) (p : Phase) (d : Decoder) : (d.accept v p).ecomp = 0#8 := rfl
@[simp] theorem Decoder.accept_erecv (v : Word) (p : Phase) (d : Decoder) : (d.accept v p).erecv = 0#8 := rfl
@[simp] theorem Decoder.accept_ephase (v : Word) (p : Phase) (d : Decoder) : (d.accept v p).ephase = .idle := rfl
@[simp] theorem Decoder.accept_edur (v : Word) (p : Phase) (d : Decoder) : (d.accept v p).edur = 0#32 := rfl
@[simp] theorem Decoder.accept_pinerr (v : Word) (p : Phase) (d : Decoder) : (d.accept v p).pinerr = 0#32 := rfl
@[simp] theorem Decoder.accept_dur (v : Word) (p : Phase) (d : Decoder) : (d.accept v p).dur = d.dur := rfl
@[simp] theorem Decoder.accept_ill (v : Word) (p : Phase) (d : Decoder) : (d.accept v p).ill = d.ill := rfl
@[simp] theorem Decoder.accept_ovr (v : Word) (p : Phase) (d : Decoder) : (d.accept v p).ovr = d.ovr := rfl
@[simp] theorem Decoder.accept_pdir (v : Word) (p : Phase) (d : Decoder) : (d.accept v p).pdir = d.pdir := rfl
@[simp] theorem Decoder.accept_plvl (v : Word) (p : Phase) (d : Decoder) : (d.accept v p).plvl = d.plvl := rfl

/-! ## `Decoder.clearRaw` -/

@[simp] theorem Decoder.clearRaw_phase (d : Decoder) : d.clearRaw.phase = d.phase := rfl
@[simp] theorem Decoder.clearRaw_bitidx (d : Decoder) : d.clearRaw.bitidx = 0#6 := rfl
@[simp] theorem Decoder.clearRaw_op (d : Decoder) : d.clearRaw.op = d.op := rfl
@[simp] theorem Decoder.clearRaw_wlvl (d : Decoder) : d.clearRaw.wlvl = d.wlvl := rfl
@[simp] theorem Decoder.clearRaw_wmax (d : Decoder) : d.clearRaw.wmax = d.wmax := rfl
@[simp] theorem Decoder.clearRaw_raw (d : Decoder) : d.clearRaw.raw = Frame.zero := rfl
@[simp] theorem Decoder.clearRaw_meas (d : Decoder) : d.clearRaw.meas = d.meas := rfl
@[simp] theorem Decoder.clearRaw_mvalid (d : Decoder) : d.clearRaw.mvalid = d.mvalid := rfl
@[simp] theorem Decoder.clearRaw_busy (d : Decoder) : d.clearRaw.busy = d.busy := rfl
@[simp] theorem Decoder.clearRaw_done (d : Decoder) : d.clearRaw.done = d.done := rfl
@[simp] theorem Decoder.clearRaw_ok (d : Decoder) : d.clearRaw.ok = d.ok := rfl
@[simp] theorem Decoder.clearRaw_err (d : Decoder) : d.clearRaw.err = d.err := rfl
@[simp] theorem Decoder.clearRaw_eidx (d : Decoder) : d.clearRaw.eidx = d.eidx := rfl
@[simp] theorem Decoder.clearRaw_ecomp (d : Decoder) : d.clearRaw.ecomp = d.ecomp := rfl
@[simp] theorem Decoder.clearRaw_erecv (d : Decoder) : d.clearRaw.erecv = d.erecv := rfl
@[simp] theorem Decoder.clearRaw_ephase (d : Decoder) : d.clearRaw.ephase = d.ephase := rfl
@[simp] theorem Decoder.clearRaw_edur (d : Decoder) : d.clearRaw.edur = d.edur := rfl
@[simp] theorem Decoder.clearRaw_pinerr (d : Decoder) : d.clearRaw.pinerr = d.pinerr := rfl
@[simp] theorem Decoder.clearRaw_dur (d : Decoder) : d.clearRaw.dur = d.dur := rfl
@[simp] theorem Decoder.clearRaw_ill (d : Decoder) : d.clearRaw.ill = d.ill := rfl
@[simp] theorem Decoder.clearRaw_ovr (d : Decoder) : d.clearRaw.ovr = d.ovr := rfl
@[simp] theorem Decoder.clearRaw_pdir (d : Decoder) : d.clearRaw.pdir = d.pdir := rfl
@[simp] theorem Decoder.clearRaw_plvl (d : Decoder) : d.clearRaw.plvl = d.plvl := rfl

/-! ## `Decoder.markOvr` -/

@[simp] theorem Decoder.markOvr_phase (d : Decoder) : d.markOvr.phase = d.phase := rfl
@[simp] theorem Decoder.markOvr_bitidx (d : Decoder) : d.markOvr.bitidx = d.bitidx := rfl
@[simp] theorem Decoder.markOvr_op (d : Decoder) : d.markOvr.op = d.op := rfl
@[simp] theorem Decoder.markOvr_wlvl (d : Decoder) : d.markOvr.wlvl = d.wlvl := rfl
@[simp] theorem Decoder.markOvr_wmax (d : Decoder) : d.markOvr.wmax = d.wmax := rfl
@[simp] theorem Decoder.markOvr_raw (d : Decoder) : d.markOvr.raw = d.raw := rfl
@[simp] theorem Decoder.markOvr_meas (d : Decoder) : d.markOvr.meas = d.meas := rfl
@[simp] theorem Decoder.markOvr_mvalid (d : Decoder) : d.markOvr.mvalid = d.mvalid := rfl
@[simp] theorem Decoder.markOvr_busy (d : Decoder) : d.markOvr.busy = d.busy := rfl
@[simp] theorem Decoder.markOvr_done (d : Decoder) : d.markOvr.done = d.done := rfl
@[simp] theorem Decoder.markOvr_ok (d : Decoder) : d.markOvr.ok = d.ok := rfl
@[simp] theorem Decoder.markOvr_err (d : Decoder) : d.markOvr.err = d.err := rfl
@[simp] theorem Decoder.markOvr_eidx (d : Decoder) : d.markOvr.eidx = d.eidx := rfl
@[simp] theorem Decoder.markOvr_ecomp (d : Decoder) : d.markOvr.ecomp = d.ecomp := rfl
@[simp] theorem Decoder.markOvr_erecv (d : Decoder) : d.markOvr.erecv = d.erecv := rfl
@[simp] theorem Decoder.markOvr_ephase (d : Decoder) : d.markOvr.ephase = d.ephase := rfl
@[simp] theorem Decoder.markOvr_edur (d : Decoder) : d.markOvr.edur = d.edur := rfl
@[simp] theorem Decoder.markOvr_pinerr (d : Decoder) : d.markOvr.pinerr = d.pinerr := rfl
@[simp] theorem Decoder.markOvr_dur (d : Decoder) : d.markOvr.dur = d.dur := rfl
@[simp] theorem Decoder.markOvr_ill (d : Decoder) : d.markOvr.ill = d.ill := rfl
@[simp] theorem Decoder.markOvr_ovr (d : Decoder) : d.markOvr.ovr = true := rfl
@[simp] theorem Decoder.markOvr_pdir (d : Decoder) : d.markOvr.pdir = d.pdir := rfl
@[simp] theorem Decoder.markOvr_plvl (d : Decoder) : d.markOvr.plvl = d.plvl := rfl

/-! ## `Decoder.markIll` -/

@[simp] theorem Decoder.markIll_phase (d : Decoder) : d.markIll.phase = d.phase := rfl
@[simp] theorem Decoder.markIll_bitidx (d : Decoder) : d.markIll.bitidx = d.bitidx := rfl
@[simp] theorem Decoder.markIll_op (d : Decoder) : d.markIll.op = d.op := rfl
@[simp] theorem Decoder.markIll_wlvl (d : Decoder) : d.markIll.wlvl = d.wlvl := rfl
@[simp] theorem Decoder.markIll_wmax (d : Decoder) : d.markIll.wmax = d.wmax := rfl
@[simp] theorem Decoder.markIll_raw (d : Decoder) : d.markIll.raw = d.raw := rfl
@[simp] theorem Decoder.markIll_meas (d : Decoder) : d.markIll.meas = d.meas := rfl
@[simp] theorem Decoder.markIll_mvalid (d : Decoder) : d.markIll.mvalid = d.mvalid := rfl
@[simp] theorem Decoder.markIll_busy (d : Decoder) : d.markIll.busy = d.busy := rfl
@[simp] theorem Decoder.markIll_done (d : Decoder) : d.markIll.done = d.done := rfl
@[simp] theorem Decoder.markIll_ok (d : Decoder) : d.markIll.ok = d.ok := rfl
@[simp] theorem Decoder.markIll_err (d : Decoder) : d.markIll.err = d.err := rfl
@[simp] theorem Decoder.markIll_eidx (d : Decoder) : d.markIll.eidx = d.eidx := rfl
@[simp] theorem Decoder.markIll_ecomp (d : Decoder) : d.markIll.ecomp = d.ecomp := rfl
@[simp] theorem Decoder.markIll_erecv (d : Decoder) : d.markIll.erecv = d.erecv := rfl
@[simp] theorem Decoder.markIll_ephase (d : Decoder) : d.markIll.ephase = d.ephase := rfl
@[simp] theorem Decoder.markIll_edur (d : Decoder) : d.markIll.edur = d.edur := rfl
@[simp] theorem Decoder.markIll_pinerr (d : Decoder) : d.markIll.pinerr = d.pinerr := rfl
@[simp] theorem Decoder.markIll_dur (d : Decoder) : d.markIll.dur = d.dur := rfl
@[simp] theorem Decoder.markIll_ill (d : Decoder) : d.markIll.ill = true := rfl
@[simp] theorem Decoder.markIll_ovr (d : Decoder) : d.markIll.ovr = d.ovr := rfl
@[simp] theorem Decoder.markIll_pdir (d : Decoder) : d.markIll.pdir = d.pdir := rfl
@[simp] theorem Decoder.markIll_plvl (d : Decoder) : d.markIll.plvl = d.plvl := rfl

/-! ## `Decoder.loadRaw` -/

@[simp] theorem Decoder.loadRaw_phase (f : Frame) (d : Decoder) : (d.loadRaw f).phase = d.phase := rfl
@[simp] theorem Decoder.loadRaw_bitidx (f : Frame) (d : Decoder) : (d.loadRaw f).bitidx = d.bitidx := rfl
@[simp] theorem Decoder.loadRaw_op (f : Frame) (d : Decoder) : (d.loadRaw f).op = d.op := rfl
@[simp] theorem Decoder.loadRaw_wlvl (f : Frame) (d : Decoder) : (d.loadRaw f).wlvl = d.wlvl := rfl
@[simp] theorem Decoder.loadRaw_wmax (f : Frame) (d : Decoder) : (d.loadRaw f).wmax = d.wmax := rfl
@[simp] theorem Decoder.loadRaw_raw (f : Frame) (d : Decoder) : (d.loadRaw f).raw = f := rfl
@[simp] theorem Decoder.loadRaw_meas (f : Frame) (d : Decoder) : (d.loadRaw f).meas = d.meas := rfl
@[simp] theorem Decoder.loadRaw_mvalid (f : Frame) (d : Decoder) : (d.loadRaw f).mvalid = d.mvalid := rfl
@[simp] theorem Decoder.loadRaw_busy (f : Frame) (d : Decoder) : (d.loadRaw f).busy = d.busy := rfl
@[simp] theorem Decoder.loadRaw_done (f : Frame) (d : Decoder) : (d.loadRaw f).done = d.done := rfl
@[simp] theorem Decoder.loadRaw_ok (f : Frame) (d : Decoder) : (d.loadRaw f).ok = d.ok := rfl
@[simp] theorem Decoder.loadRaw_err (f : Frame) (d : Decoder) : (d.loadRaw f).err = d.err := rfl
@[simp] theorem Decoder.loadRaw_eidx (f : Frame) (d : Decoder) : (d.loadRaw f).eidx = d.eidx := rfl
@[simp] theorem Decoder.loadRaw_ecomp (f : Frame) (d : Decoder) : (d.loadRaw f).ecomp = d.ecomp := rfl
@[simp] theorem Decoder.loadRaw_erecv (f : Frame) (d : Decoder) : (d.loadRaw f).erecv = d.erecv := rfl
@[simp] theorem Decoder.loadRaw_ephase (f : Frame) (d : Decoder) : (d.loadRaw f).ephase = d.ephase := rfl
@[simp] theorem Decoder.loadRaw_edur (f : Frame) (d : Decoder) : (d.loadRaw f).edur = d.edur := rfl
@[simp] theorem Decoder.loadRaw_pinerr (f : Frame) (d : Decoder) : (d.loadRaw f).pinerr = d.pinerr := rfl
@[simp] theorem Decoder.loadRaw_dur (f : Frame) (d : Decoder) : (d.loadRaw f).dur = d.dur := rfl
@[simp] theorem Decoder.loadRaw_ill (f : Frame) (d : Decoder) : (d.loadRaw f).ill = d.ill := rfl
@[simp] theorem Decoder.loadRaw_ovr (f : Frame) (d : Decoder) : (d.loadRaw f).ovr = d.ovr := rfl
@[simp] theorem Decoder.loadRaw_pdir (f : Frame) (d : Decoder) : (d.loadRaw f).pdir = d.pdir := rfl
@[simp] theorem Decoder.loadRaw_plvl (f : Frame) (d : Decoder) : (d.loadRaw f).plvl = d.plvl := rfl

/-! ## `Decoder.goto` -/

@[simp] theorem Decoder.goto_phase (p : Phase) (d : Decoder) : (d.goto p).phase = p := rfl
@[simp] theorem Decoder.goto_bitidx (p : Phase) (d : Decoder) : (d.goto p).bitidx = d.bitidx := rfl
@[simp] theorem Decoder.goto_op (p : Phase) (d : Decoder) : (d.goto p).op = d.op := rfl
@[simp] theorem Decoder.goto_wlvl (p : Phase) (d : Decoder) : (d.goto p).wlvl = d.wlvl := rfl
@[simp] theorem Decoder.goto_wmax (p : Phase) (d : Decoder) : (d.goto p).wmax = d.wmax := rfl
@[simp] theorem Decoder.goto_raw (p : Phase) (d : Decoder) : (d.goto p).raw = d.raw := rfl
@[simp] theorem Decoder.goto_meas (p : Phase) (d : Decoder) : (d.goto p).meas = d.meas := rfl
@[simp] theorem Decoder.goto_mvalid (p : Phase) (d : Decoder) : (d.goto p).mvalid = d.mvalid := rfl
@[simp] theorem Decoder.goto_busy (p : Phase) (d : Decoder) : (d.goto p).busy = d.busy := rfl
@[simp] theorem Decoder.goto_done (p : Phase) (d : Decoder) : (d.goto p).done = d.done := rfl
@[simp] theorem Decoder.goto_ok (p : Phase) (d : Decoder) : (d.goto p).ok = d.ok := rfl
@[simp] theorem Decoder.goto_err (p : Phase) (d : Decoder) : (d.goto p).err = d.err := rfl
@[simp] theorem Decoder.goto_eidx (p : Phase) (d : Decoder) : (d.goto p).eidx = d.eidx := rfl
@[simp] theorem Decoder.goto_ecomp (p : Phase) (d : Decoder) : (d.goto p).ecomp = d.ecomp := rfl
@[simp] theorem Decoder.goto_erecv (p : Phase) (d : Decoder) : (d.goto p).erecv = d.erecv := rfl
@[simp] theorem Decoder.goto_ephase (p : Phase) (d : Decoder) : (d.goto p).ephase = d.ephase := rfl
@[simp] theorem Decoder.goto_edur (p : Phase) (d : Decoder) : (d.goto p).edur = d.edur := rfl
@[simp] theorem Decoder.goto_pinerr (p : Phase) (d : Decoder) : (d.goto p).pinerr = d.pinerr := rfl
@[simp] theorem Decoder.goto_dur (p : Phase) (d : Decoder) : (d.goto p).dur = d.dur := rfl
@[simp] theorem Decoder.goto_ill (p : Phase) (d : Decoder) : (d.goto p).ill = d.ill := rfl
@[simp] theorem Decoder.goto_ovr (p : Phase) (d : Decoder) : (d.goto p).ovr = d.ovr := rfl
@[simp] theorem Decoder.goto_pdir (p : Phase) (d : Decoder) : (d.goto p).pdir = d.pdir := rfl
@[simp] theorem Decoder.goto_plvl (p : Phase) (d : Decoder) : (d.goto p).plvl = d.plvl := rfl

/-! ## `Decoder.setPlvl` -/

@[simp] theorem Decoder.setPlvl_phase (l : Level) (d : Decoder) : (d.setPlvl l).phase = d.phase := rfl
@[simp] theorem Decoder.setPlvl_bitidx (l : Level) (d : Decoder) : (d.setPlvl l).bitidx = d.bitidx := rfl
@[simp] theorem Decoder.setPlvl_op (l : Level) (d : Decoder) : (d.setPlvl l).op = d.op := rfl
@[simp] theorem Decoder.setPlvl_wlvl (l : Level) (d : Decoder) : (d.setPlvl l).wlvl = d.wlvl := rfl
@[simp] theorem Decoder.setPlvl_wmax (l : Level) (d : Decoder) : (d.setPlvl l).wmax = d.wmax := rfl
@[simp] theorem Decoder.setPlvl_raw (l : Level) (d : Decoder) : (d.setPlvl l).raw = d.raw := rfl
@[simp] theorem Decoder.setPlvl_meas (l : Level) (d : Decoder) : (d.setPlvl l).meas = d.meas := rfl
@[simp] theorem Decoder.setPlvl_mvalid (l : Level) (d : Decoder) : (d.setPlvl l).mvalid = d.mvalid := rfl
@[simp] theorem Decoder.setPlvl_busy (l : Level) (d : Decoder) : (d.setPlvl l).busy = d.busy := rfl
@[simp] theorem Decoder.setPlvl_done (l : Level) (d : Decoder) : (d.setPlvl l).done = d.done := rfl
@[simp] theorem Decoder.setPlvl_ok (l : Level) (d : Decoder) : (d.setPlvl l).ok = d.ok := rfl
@[simp] theorem Decoder.setPlvl_err (l : Level) (d : Decoder) : (d.setPlvl l).err = d.err := rfl
@[simp] theorem Decoder.setPlvl_eidx (l : Level) (d : Decoder) : (d.setPlvl l).eidx = d.eidx := rfl
@[simp] theorem Decoder.setPlvl_ecomp (l : Level) (d : Decoder) : (d.setPlvl l).ecomp = d.ecomp := rfl
@[simp] theorem Decoder.setPlvl_erecv (l : Level) (d : Decoder) : (d.setPlvl l).erecv = d.erecv := rfl
@[simp] theorem Decoder.setPlvl_ephase (l : Level) (d : Decoder) : (d.setPlvl l).ephase = d.ephase := rfl
@[simp] theorem Decoder.setPlvl_edur (l : Level) (d : Decoder) : (d.setPlvl l).edur = d.edur := rfl
@[simp] theorem Decoder.setPlvl_pinerr (l : Level) (d : Decoder) : (d.setPlvl l).pinerr = d.pinerr := rfl
@[simp] theorem Decoder.setPlvl_dur (l : Level) (d : Decoder) : (d.setPlvl l).dur = d.dur := rfl
@[simp] theorem Decoder.setPlvl_ill (l : Level) (d : Decoder) : (d.setPlvl l).ill = d.ill := rfl
@[simp] theorem Decoder.setPlvl_ovr (l : Level) (d : Decoder) : (d.setPlvl l).ovr = d.ovr := rfl
@[simp] theorem Decoder.setPlvl_pdir (l : Level) (d : Decoder) : (d.setPlvl l).pdir = d.pdir := rfl
@[simp] theorem Decoder.setPlvl_plvl (l : Level) (d : Decoder) : (d.setPlvl l).plvl = l := rfl

/-! ## `Decoder.setPdir` -/

@[simp] theorem Decoder.setPdir_phase (r : Dir) (d : Decoder) : (d.setPdir r).phase = d.phase := rfl
@[simp] theorem Decoder.setPdir_bitidx (r : Dir) (d : Decoder) : (d.setPdir r).bitidx = d.bitidx := rfl
@[simp] theorem Decoder.setPdir_op (r : Dir) (d : Decoder) : (d.setPdir r).op = d.op := rfl
@[simp] theorem Decoder.setPdir_wlvl (r : Dir) (d : Decoder) : (d.setPdir r).wlvl = d.wlvl := rfl
@[simp] theorem Decoder.setPdir_wmax (r : Dir) (d : Decoder) : (d.setPdir r).wmax = d.wmax := rfl
@[simp] theorem Decoder.setPdir_raw (r : Dir) (d : Decoder) : (d.setPdir r).raw = d.raw := rfl
@[simp] theorem Decoder.setPdir_meas (r : Dir) (d : Decoder) : (d.setPdir r).meas = d.meas := rfl
@[simp] theorem Decoder.setPdir_mvalid (r : Dir) (d : Decoder) : (d.setPdir r).mvalid = d.mvalid := rfl
@[simp] theorem Decoder.setPdir_busy (r : Dir) (d : Decoder) : (d.setPdir r).busy = d.busy := rfl
@[simp] theorem Decoder.setPdir_done (r : Dir) (d : Decoder) : (d.setPdir r).done = d.done := rfl
@[simp] theorem Decoder.setPdir_ok (r : Dir) (d : Decoder) : (d.setPdir r).ok = d.ok := rfl
@[simp] theorem Decoder.setPdir_err (r : Dir) (d : Decoder) : (d.setPdir r).err = d.err := rfl
@[simp] theorem Decoder.setPdir_eidx (r : Dir) (d : Decoder) : (d.setPdir r).eidx = d.eidx := rfl
@[simp] theorem Decoder.setPdir_ecomp (r : Dir) (d : Decoder) : (d.setPdir r).ecomp = d.ecomp := rfl
@[simp] theorem Decoder.setPdir_erecv (r : Dir) (d : Decoder) : (d.setPdir r).erecv = d.erecv := rfl
@[simp] theorem Decoder.setPdir_ephase (r : Dir) (d : Decoder) : (d.setPdir r).ephase = d.ephase := rfl
@[simp] theorem Decoder.setPdir_edur (r : Dir) (d : Decoder) : (d.setPdir r).edur = d.edur := rfl
@[simp] theorem Decoder.setPdir_pinerr (r : Dir) (d : Decoder) : (d.setPdir r).pinerr = d.pinerr := rfl
@[simp] theorem Decoder.setPdir_dur (r : Dir) (d : Decoder) : (d.setPdir r).dur = d.dur := rfl
@[simp] theorem Decoder.setPdir_ill (r : Dir) (d : Decoder) : (d.setPdir r).ill = d.ill := rfl
@[simp] theorem Decoder.setPdir_ovr (r : Dir) (d : Decoder) : (d.setPdir r).ovr = d.ovr := rfl
@[simp] theorem Decoder.setPdir_pdir (r : Dir) (d : Decoder) : (d.setPdir r).pdir = r := rfl
@[simp] theorem Decoder.setPdir_plvl (r : Dir) (d : Decoder) : (d.setPdir r).plvl = d.plvl := rfl

/-! ## `Decoder.setDur` -/

@[simp] theorem Decoder.setDur_phase (w : Word) (d : Decoder) : (d.setDur w).phase = d.phase := rfl
@[simp] theorem Decoder.setDur_bitidx (w : Word) (d : Decoder) : (d.setDur w).bitidx = d.bitidx := rfl
@[simp] theorem Decoder.setDur_op (w : Word) (d : Decoder) : (d.setDur w).op = d.op := rfl
@[simp] theorem Decoder.setDur_wlvl (w : Word) (d : Decoder) : (d.setDur w).wlvl = d.wlvl := rfl
@[simp] theorem Decoder.setDur_wmax (w : Word) (d : Decoder) : (d.setDur w).wmax = d.wmax := rfl
@[simp] theorem Decoder.setDur_raw (w : Word) (d : Decoder) : (d.setDur w).raw = d.raw := rfl
@[simp] theorem Decoder.setDur_meas (w : Word) (d : Decoder) : (d.setDur w).meas = d.meas := rfl
@[simp] theorem Decoder.setDur_mvalid (w : Word) (d : Decoder) : (d.setDur w).mvalid = d.mvalid := rfl
@[simp] theorem Decoder.setDur_busy (w : Word) (d : Decoder) : (d.setDur w).busy = d.busy := rfl
@[simp] theorem Decoder.setDur_done (w : Word) (d : Decoder) : (d.setDur w).done = d.done := rfl
@[simp] theorem Decoder.setDur_ok (w : Word) (d : Decoder) : (d.setDur w).ok = d.ok := rfl
@[simp] theorem Decoder.setDur_err (w : Word) (d : Decoder) : (d.setDur w).err = d.err := rfl
@[simp] theorem Decoder.setDur_eidx (w : Word) (d : Decoder) : (d.setDur w).eidx = d.eidx := rfl
@[simp] theorem Decoder.setDur_ecomp (w : Word) (d : Decoder) : (d.setDur w).ecomp = d.ecomp := rfl
@[simp] theorem Decoder.setDur_erecv (w : Word) (d : Decoder) : (d.setDur w).erecv = d.erecv := rfl
@[simp] theorem Decoder.setDur_ephase (w : Word) (d : Decoder) : (d.setDur w).ephase = d.ephase := rfl
@[simp] theorem Decoder.setDur_edur (w : Word) (d : Decoder) : (d.setDur w).edur = d.edur := rfl
@[simp] theorem Decoder.setDur_pinerr (w : Word) (d : Decoder) : (d.setDur w).pinerr = d.pinerr := rfl
@[simp] theorem Decoder.setDur_dur (w : Word) (d : Decoder) : (d.setDur w).dur = w := rfl
@[simp] theorem Decoder.setDur_ill (w : Word) (d : Decoder) : (d.setDur w).ill = d.ill := rfl
@[simp] theorem Decoder.setDur_ovr (w : Word) (d : Decoder) : (d.setDur w).ovr = d.ovr := rfl
@[simp] theorem Decoder.setDur_pdir (w : Word) (d : Decoder) : (d.setDur w).pdir = d.pdir := rfl
@[simp] theorem Decoder.setDur_plvl (w : Word) (d : Decoder) : (d.setDur w).plvl = d.plvl := rfl

/-! ## `Decoder.shiftRaw` -/

@[simp] theorem Decoder.shiftRaw_phase (c : Bit) (n : BitVec 6) (d : Decoder) : (d.shiftRaw c n).phase = d.phase := rfl
@[simp] theorem Decoder.shiftRaw_bitidx (c : Bit) (n : BitVec 6) (d : Decoder) : (d.shiftRaw c n).bitidx = n := rfl
@[simp] theorem Decoder.shiftRaw_op (c : Bit) (n : BitVec 6) (d : Decoder) : (d.shiftRaw c n).op = d.op := rfl
@[simp] theorem Decoder.shiftRaw_wlvl (c : Bit) (n : BitVec 6) (d : Decoder) : (d.shiftRaw c n).wlvl = d.wlvl := rfl
@[simp] theorem Decoder.shiftRaw_wmax (c : Bit) (n : BitVec 6) (d : Decoder) : (d.shiftRaw c n).wmax = d.wmax := rfl
@[simp] theorem Decoder.shiftRaw_raw (c : Bit) (n : BitVec 6) (d : Decoder) : (d.shiftRaw c n).raw = shiftIn d.raw d.bitidx.toNat c := rfl
@[simp] theorem Decoder.shiftRaw_meas (c : Bit) (n : BitVec 6) (d : Decoder) : (d.shiftRaw c n).meas = d.meas := rfl
@[simp] theorem Decoder.shiftRaw_mvalid (c : Bit) (n : BitVec 6) (d : Decoder) : (d.shiftRaw c n).mvalid = d.mvalid := rfl
@[simp] theorem Decoder.shiftRaw_busy (c : Bit) (n : BitVec 6) (d : Decoder) : (d.shiftRaw c n).busy = d.busy := rfl
@[simp] theorem Decoder.shiftRaw_done (c : Bit) (n : BitVec 6) (d : Decoder) : (d.shiftRaw c n).done = d.done := rfl
@[simp] theorem Decoder.shiftRaw_ok (c : Bit) (n : BitVec 6) (d : Decoder) : (d.shiftRaw c n).ok = d.ok := rfl
@[simp] theorem Decoder.shiftRaw_err (c : Bit) (n : BitVec 6) (d : Decoder) : (d.shiftRaw c n).err = d.err := rfl
@[simp] theorem Decoder.shiftRaw_eidx (c : Bit) (n : BitVec 6) (d : Decoder) : (d.shiftRaw c n).eidx = d.eidx := rfl
@[simp] theorem Decoder.shiftRaw_ecomp (c : Bit) (n : BitVec 6) (d : Decoder) : (d.shiftRaw c n).ecomp = d.ecomp := rfl
@[simp] theorem Decoder.shiftRaw_erecv (c : Bit) (n : BitVec 6) (d : Decoder) : (d.shiftRaw c n).erecv = d.erecv := rfl
@[simp] theorem Decoder.shiftRaw_ephase (c : Bit) (n : BitVec 6) (d : Decoder) : (d.shiftRaw c n).ephase = d.ephase := rfl
@[simp] theorem Decoder.shiftRaw_edur (c : Bit) (n : BitVec 6) (d : Decoder) : (d.shiftRaw c n).edur = d.edur := rfl
@[simp] theorem Decoder.shiftRaw_pinerr (c : Bit) (n : BitVec 6) (d : Decoder) : (d.shiftRaw c n).pinerr = d.pinerr := rfl
@[simp] theorem Decoder.shiftRaw_dur (c : Bit) (n : BitVec 6) (d : Decoder) : (d.shiftRaw c n).dur = d.dur := rfl
@[simp] theorem Decoder.shiftRaw_ill (c : Bit) (n : BitVec 6) (d : Decoder) : (d.shiftRaw c n).ill = d.ill := rfl
@[simp] theorem Decoder.shiftRaw_ovr (c : Bit) (n : BitVec 6) (d : Decoder) : (d.shiftRaw c n).ovr = d.ovr := rfl
@[simp] theorem Decoder.shiftRaw_pdir (c : Bit) (n : BitVec 6) (d : Decoder) : (d.shiftRaw c n).pdir = d.pdir := rfl
@[simp] theorem Decoder.shiftRaw_plvl (c : Bit) (n : BitVec 6) (d : Decoder) : (d.shiftRaw c n).plvl = d.plvl := rfl

/-! ## `Decoder.buildMeas` -/

@[simp] theorem Decoder.buildMeas_phase (d : Decoder) : d.buildMeas.phase = d.phase := rfl
@[simp] theorem Decoder.buildMeas_bitidx (d : Decoder) : d.buildMeas.bitidx = d.bitidx := rfl
@[simp] theorem Decoder.buildMeas_op (d : Decoder) : d.buildMeas.op = d.op := rfl
@[simp] theorem Decoder.buildMeas_wlvl (d : Decoder) : d.buildMeas.wlvl = d.wlvl := rfl
@[simp] theorem Decoder.buildMeas_wmax (d : Decoder) : d.buildMeas.wmax = d.wmax := rfl
@[simp] theorem Decoder.buildMeas_raw (d : Decoder) : d.buildMeas.raw = d.raw := rfl
@[simp] theorem Decoder.buildMeas_meas (d : Decoder) : d.buildMeas.meas = measureOf d.raw := rfl
@[simp] theorem Decoder.buildMeas_mvalid (d : Decoder) : d.buildMeas.mvalid = true := rfl
@[simp] theorem Decoder.buildMeas_busy (d : Decoder) : d.buildMeas.busy = d.busy := rfl
@[simp] theorem Decoder.buildMeas_done (d : Decoder) : d.buildMeas.done = d.done := rfl
@[simp] theorem Decoder.buildMeas_ok (d : Decoder) : d.buildMeas.ok = d.ok := rfl
@[simp] theorem Decoder.buildMeas_err (d : Decoder) : d.buildMeas.err = d.err := rfl
@[simp] theorem Decoder.buildMeas_eidx (d : Decoder) : d.buildMeas.eidx = d.eidx := rfl
@[simp] theorem Decoder.buildMeas_ecomp (d : Decoder) : d.buildMeas.ecomp = d.ecomp := rfl
@[simp] theorem Decoder.buildMeas_erecv (d : Decoder) : d.buildMeas.erecv = d.erecv := rfl
@[simp] theorem Decoder.buildMeas_ephase (d : Decoder) : d.buildMeas.ephase = d.ephase := rfl
@[simp] theorem Decoder.buildMeas_edur (d : Decoder) : d.buildMeas.edur = d.edur := rfl
@[simp] theorem Decoder.buildMeas_pinerr (d : Decoder) : d.buildMeas.pinerr = d.pinerr := rfl
@[simp] theorem Decoder.buildMeas_dur (d : Decoder) : d.buildMeas.dur = d.dur := rfl
@[simp] theorem Decoder.buildMeas_ill (d : Decoder) : d.buildMeas.ill = d.ill := rfl
@[simp] theorem Decoder.buildMeas_ovr (d : Decoder) : d.buildMeas.ovr = d.ovr := rfl
@[simp] theorem Decoder.buildMeas_pdir (d : Decoder) : d.buildMeas.pdir = d.pdir := rfl
@[simp] theorem Decoder.buildMeas_plvl (d : Decoder) : d.buildMeas.plvl = d.plvl := rfl

/-! ## `State.settle` and `resetBlock` -/

@[simp] theorem State.settle_dec (s : State) (d : Decoder) : (s.settle d).dec = d := rfl
@[simp] theorem State.settle_cfg (s : State) (d : Decoder) : (s.settle d).cfg = s.cfg := rfl
@[simp] theorem State.settle_pinReq (s : State) (d : Decoder) : (s.settle d).pinReq = (requestOf s.cfg d).map encode := rfl
@[simp] theorem State.settle_pinAns (s : State) (d : Decoder) : (s.settle d).pinAns = none := rfl
@[simp] theorem State.settle_rdata (s : State) (d : Decoder) : (s.settle d).rdata = s.rdata := rfl
@[simp] theorem State.settle_script (s : State) (d : Decoder) : (s.settle d).script = s.script := rfl
@[simp] theorem resetBlock_dec (s : State) : (resetBlock s).dec = Decoder.reset := rfl
@[simp] theorem resetBlock_cfg (s : State) : (resetBlock s).cfg = s.cfg := rfl
@[simp] theorem resetBlock_pinReq (s : State) : (resetBlock s).pinReq = none := rfl
@[simp] theorem resetBlock_pinAns (s : State) : (resetBlock s).pinAns = none := rfl
@[simp] theorem resetBlock_rdata (s : State) : (resetBlock s).rdata = s.rdata := rfl
@[simp] theorem resetBlock_script (s : State) : (resetBlock s).script = s.script := rfl

end Sys2Proof.Machine
end

