-- ==== Sys2Proof/Laws/Ops.lean ====
section
/-! SUPPORT. What each shared operation can do, said once: acceptance, the pin exchange, the continuation of a command,
and the moves. Later proofs cite these and do not unfold the operations. -/

namespace Sys2Proof.Machine

/-! ## Commands -/

theorem command_idle {s : State} (h : s.dec.busy = false) (d : Decoder) : command s d = .next (s.settle d) := by
  simp [command, h]

theorem command_busy {s : State} (h : s.dec.busy = true) (d : Decoder) :
    command s d = .next { s with dec := s.dec.markOvr } := by
  simp [command, h]

/-! ## Pin requests -/

theorem pinCall_waits {s : State} (h : s.pinAns = none) (req : Instr) (k : Answer → Decoder → Decoder) :
    pinCall req s k = .next s := by
  simp [pinCall, h]

/-- An answer of the domain that is no fault goes to the request's own rule. -/
theorem pinCall_answer {s : State} {r : AnswerRec} {a : Answer} {req : Instr} (h : s.pinAns = some r)
    (ha : decodeAnswer r = .ok a) (hd : inDomain req a = true) (hf : ∀ e, a ≠ .fault e)
    (k : Answer → Decoder → Decoder) : pinCall req s k = .next (s.settle (k a s.dec)) := by
  cases a with
  | fault e => exact absurd rfl (hf e)
  | _ => simp [pinCall, h, ha, hd]

theorem pinCall_fault {s : State} {r : AnswerRec} {e : Word} {req : Instr} (h : s.pinAns = some r)
    (ha : decodeAnswer r = .ok (.fault e)) (hd : inDomain req (.fault e) = true) (k : Answer → Decoder → Decoder) :
    pinCall req s k = .next (s.settle (s.dec.raise (.pinFault e) 0#32)) := by
  simp [pinCall, h, ha, hd]

/-- All that a pin exchange with a next state can be: no answer yet, a fault raised, or the request's own rule. -/
theorem pinCall_cases {s t : State} {req : Instr} {k : Answer → Decoder → Decoder} (h : pinCall req s k = .next t) :
    (s.pinAns = none ∧ t = s) ∨
    (∃ e, t = s.settle (s.dec.raise (.pinFault e) 0#32)) ∨
    (∃ a, inDomain req a = true ∧ (∀ e, a ≠ .fault e) ∧ t = s.settle (k a s.dec)) := by
  cases hp : s.pinAns with
  | none => rw [pinCall_waits hp] at h; injection h with h; exact .inl ⟨rfl, h.symm⟩
  | some r =>
    cases ha : decodeAnswer r with
    | error e => simp [pinCall, hp, ha] at h
    | ok a =>
      by_cases hd : inDomain req a = true
      · by_cases hf : ∃ e, a = .fault e
        · obtain ⟨e, rfl⟩ := hf
          rw [pinCall_fault hp ha hd] at h; injection h with h; exact .inr (.inl ⟨e, h.symm⟩)
        · have hf' : ∀ e, a ≠ .fault e := fun e he => hf ⟨e, he⟩
          rw [pinCall_answer hp ha hd hf'] at h; injection h with h
          exact .inr (.inr ⟨a, hd, hf', h.symm⟩)
      · simp [pinCall, hp, ha, hd] at h

theorem whenOwn_own {cfg : Config} {req : Instr} {d : Decoder} (h : requestOf cfg d = some req)
    (k : Decoder → Decoder) : whenOwn cfg req d k = k d := by
  simp [whenOwn, h]

theorem whenOwn_other {cfg : Config} {req : Instr} {d : Decoder} (h : requestOf cfg d ≠ some req)
    (k : Decoder → Decoder) : whenOwn cfg req d k = d := by
  simp [whenOwn, h]

/-- The request of a phase depends only on the phase and the latched operands of `WAITL`. -/
theorem requestOf_congr {cfg : Config} {d d' : Decoder} (hp : d'.phase = d.phase) (hl : d'.wlvl = d.wlvl)
    (hw : d'.wmax = d.wmax) : requestOf cfg d' = requestOf cfg d := by
  simp [requestOf, hp, hl, hw]

/-! ## The meanings -/

/-- All that an instruction with a next state can be: a command turned away, an accepted command, a request that waits, or
a settled pin step. Only the decoder's record and the pin port can change. -/
theorem exec_cases {i : Instr} {s t : State} (h : exec i s = .next t) :
    (i.format = .cmd ∧ s.dec.busy = true ∧ t = { s with dec := s.dec.markOvr }) ∨
    (i.format = .cmd ∧ s.dec.busy = false ∧ ∃ d, t = s.settle d) ∨
    (i.format = .pinreq ∧ s.pinAns = none ∧ t = s) ∨
    (i.format = .pinreq ∧ ∃ d, t = s.settle d) := by
  have cmd : ∀ d, command s d = .next t →
      (s.dec.busy = true ∧ t = { s with dec := s.dec.markOvr }) ∨
      (s.dec.busy = false ∧ ∃ d, t = s.settle d) := fun d hd => by
    cases hb : s.dec.busy with
    | true => rw [command_busy hb] at hd; injection hd with hd; exact .inl ⟨rfl, hd.symm⟩
    | false => rw [command_idle hb] at hd; injection hd with hd; exact .inr ⟨rfl, d, hd.symm⟩
  have pin : ∀ req k, pinCall req s k = .next t → (s.pinAns = none ∧ t = s) ∨ ∃ d, t = s.settle d := fun req k hk => by
    rcases pinCall_cases hk with hw | ⟨e, rfl⟩ | ⟨a, -, -, rfl⟩
    · exact .inl hw
    · exact .inr ⟨_, rfl⟩
    · exact .inr ⟨_, rfl⟩
  cases i with
  | read | beginTxn | ackchk | sample | validate | waitl | idle => rcases cmd _ h with hb | hb <;> simp [Instr.format, hb]
  | setLevel | setDirection | readLevel | waitForLevel | delay =>
    simp only [exec, execSetLevel, execSetDirection, execReadLevel, execWaitForLevel, execDelay] at h
    rcases pin _ _ h with hw | hd
    · simp [Instr.format, hw]
    · exact .inr (.inr (.inr ⟨rfl, hd⟩))

/-! ## Moves -/

theorem step_legal {s : State} (h : s.cfg.legal = true) : step s = nextMove s := by
  simp [step, h]

/-- A step that has a next state has a legal configuration. -/
theorem legal_of_step {s t : State} (h : step s = .next t) : s.cfg.legal = true := by
  by_cases hl : s.cfg.legal = true
  · exact hl
  · simp [step, hl] at h

theorem nextMove_nil {s : State} (h : s.script = []) : nextMove s = .next (internalStep s) := by
  simp [nextMove, h]

theorem nextMove_cons {s : State} {m : Move} {rest : List Move} (h : s.script = m :: rest) :
    nextMove s = doMove m { s with script := rest } := by
  simp [nextMove, h]

theorem internalStep_check {s : State} (h : s.dec.phase = .check) : internalStep s = s.settle s.dec.validate := by
  simp [internalStep, h]

theorem internalStep_other {s : State} (h : s.dec.phase ≠ .check) : internalStep s = s := by
  simp [internalStep, h]

/-- All that an answer move with a next state can be: nothing outstanding, or the outstanding request executed. -/
theorem answerMove_cases {r : AnswerRec} {s t : State} (h : answerMove r s = .next t) :
    (s.pinReq = none ∧ t = s) ∨
    (∃ w i, s.pinReq = some w ∧ decode .pinreq w = .ok i ∧ exec i { s with pinAns := some r } = .next t) := by
  cases hp : s.pinReq with
  | none => simp [answerMove, hp] at h; exact .inl ⟨rfl, h.symm⟩
  | some w =>
    cases hd : decode .pinreq w with
    | error e => simp [answerMove, hp, hd] at h
    | ok i => simp [answerMove, hp, hd] at h; exact .inr ⟨w, i, rfl, hd, h⟩

/-- All that a host access with a next state can be: a read; a command word executed or rejected; a write of `raw`; or a
discarded write. -/
theorem hostMove_cases {a : HostAccess} {s t : State} (h : hostMove a s = .next t) :
    (∃ idx, a = .memRead idx 4 ∧ idx < 16 ∧ t = { s with rdata := readRegister s.cfg s.dec idx }) ∨
    (∃ v, a = .memWrite 0 4 v ∧ writeCmd v s = .next t) ∨
    (∃ v, a = .memWrite 6 4 v ∧ writeRaw (withRaw0 s.dec.raw v) s = .next t) ∨
    (∃ v, a = .memWrite 7 4 v ∧ writeRaw (withRaw1 s.dec.raw v) s = .next t) ∨
    (∃ idx v, a = .memWrite idx 4 v ∧ idx < 16 ∧ idx ≠ 0 ∧ idx ≠ 6 ∧ idx ≠ 7 ∧ t = s) := by
  cases a with
  | memRead idx width =>
    by_cases hw : width = 4
    · by_cases hi : 16 ≤ idx
      · simp [hostMove, hw, hi] at h
      · simp [hostMove, hw, hi] at h
        exact .inl ⟨idx, by rw [hw], by omega, h.symm⟩
    · simp [hostMove, hw] at h
  | memWrite idx width v =>
    by_cases hw : width = 4
    · by_cases hi : 16 ≤ idx
      · simp [hostMove, hw, hi] at h
      · simp only [hostMove, hw, ne_eq, not_true_eq_false, if_false, hi] at h
        by_cases h0 : idx = 0
        · subst h0; exact .inr (.inl ⟨v, by rw [hw], h⟩)
        · by_cases h6 : idx = 6
          · subst h6; exact .inr (.inr (.inl ⟨v, by rw [hw], h⟩))
          · by_cases h7 : idx = 7
            · subst h7; exact .inr (.inr (.inr (.inl ⟨v, by rw [hw], h⟩)))
            · have : writeRegister idx v s = .next s := by
                unfold writeRegister; split <;> simp_all
              rw [this] at h; injection h with h
              exact .inr (.inr (.inr (.inr ⟨idx, v, by rw [hw], by omega, h0, h6, h7, h.symm⟩)))
    · simp [hostMove, hw] at h

/-- In a state that can sample, the index that `BitOutOfRange` carries is `bitidx`. -/
theorem frameIndex_val {d : Decoder} (h : d.bitidx.toNat < 40) : d.frameIndex.val = d.bitidx.toNat := by
  simp [Decoder.frameIndex, Nat.mod_eq_of_lt h]

/-- So `EIDX` of a bit out of range is `bitidx`. -/
theorem index_frameIndex {d : Decoder} (h : d.bitidx.toNat < 40) (p : Phase) :
    (ProtocolError.bitOutOfRange d.frameIndex).index p d.bitidx = d.bitidx := by
  simp [ProtocolError.index, frameIndex_val h]

/-- All that a write of `raw` can be: discarded with `OVR`, or made. -/
theorem writeRaw_cases {f : Frame} {s t : State} (h : writeRaw f s = .next t) :
    (s.dec.busy = true ∧ t = { s with dec := s.dec.markOvr }) ∨
    (s.dec.busy = false ∧ t = { s with dec := s.dec.loadRaw f }) := by
  cases hb : s.dec.busy <;> simp [writeRaw, hb] at h
  · exact .inr ⟨rfl, h.symm⟩
  · exact .inl ⟨rfl, h.symm⟩

/-- All that a write of `CMD` can be: a legal word executed; an illegal word discarded with `OVR` or with `ILL`. -/
theorem writeCmd_cases {v : Word} {s t : State} (h : writeCmd v s = .next t) :
    (∃ i, decode .cmd v = .ok i ∧ exec i s = .next t) ∨
    ((∀ i, decode .cmd v ≠ .ok i) ∧ s.dec.busy = true ∧ t = { s with dec := s.dec.markOvr }) ∨
    ((∀ i, decode .cmd v ≠ .ok i) ∧ s.dec.busy = false ∧ t = { s with dec := s.dec.markIll }) := by
  cases hd : decode .cmd v with
  | ok i => simp [writeCmd, hd] at h; exact .inl ⟨i, rfl, h⟩
  | error e =>
    cases hb : s.dec.busy <;> simp [writeCmd, hd, hb] at h
    · exact .inr (.inr ⟨by simp, rfl, h.symm⟩)
    · exact .inr (.inl ⟨by simp, rfl, h.symm⟩)

end Sys2Proof.Machine
end

