-- ==== Sys2Proof/Laws/Words.lean ====
section
/-! SUPPORT. The fields of the words the encoders build: reading a field of a built word gives the field, and a word is
built from its own fields. -/

namespace Sys2Proof

@[simp] theorem levelOfBit_bit (l : Level) : levelOfBit l.bit = l := by cases l <;> rfl
@[simp] theorem dirOfBit_bit (d : Dir) : dirOfBit d.bit = d := by cases d <;> rfl
@[simp] theorem bit_levelOfBit (b : Bool) : (levelOfBit b).bit = b := by cases b <;> rfl
@[simp] theorem bit_dirOfBit (b : Bool) : (dirOfBit b).bit = b := by cases b <;> rfl

/-- The bits of a placed field. -/
theorem getLsbD_field {n : Nat} (pos : Nat) (x : BitVec n) (i : Nat) :
    (field pos x).getLsbD i = (decide (i < 32) && decide (pos ≤ i) && x.getLsbD (i - pos)) := by
  simp only [field, BitVec.getLsbD_shiftLeft, BitVec.getLsbD_setWidth]
  by_cases h : i < 32
  · by_cases h' : pos ≤ i
    · simp [h, h', show ¬ i < pos by omega, show i - pos < 32 by omega]
    · simp [h, h', show i < pos by omega]
  · simp [h]

/-- The bits of a field read from a word. -/
theorem getLsbD_slice {w n : Nat} (pos : Nat) (v : BitVec w) (i : Nat) (h : i < n) :
    (v.extractLsb' pos n).getLsbD i = v.getLsbD (pos + i) := by
  simp [h]

/-- A bit of a one-bit value. -/
theorem getLsbD_bit (b : Bool) (i : Nat) : (BitVec.ofBool b).getLsbD i = (decide (i = 0) && b) := by
  cases b <;> simp [BitVec.ofBool]

/-- A bit beyond a value's width. -/
theorem getLsbD_beyond {n : Nat} (x : BitVec n) (i : Nat) (h : n ≤ i) : x.getLsbD i = false :=
  BitVec.getLsbD_of_ge x i h

@[simp] theorem cmdOp_cmdWord (m : BitVec 24) (l : Level) (op : BitVec 4) : cmdOp (cmdWord m l op) = op := by
  apply BitVec.eq_of_getLsbD_eq
  intro i hi
  simp only [cmdOp, cmdWord, getLsbD_slice _ _ _ hi, BitVec.getLsbD_or, getLsbD_field, getLsbD_bit]
  rcases (by omega : i = 0 ∨ i = 1 ∨ i = 2 ∨ i = 3) with rfl | rfl | rfl | rfl <;> simp

@[simp] theorem cmdLvl_cmdWord (m : BitVec 24) (l : Level) (op : BitVec 4) : cmdLvl (cmdWord m l op) = l := by
  simp only [cmdLvl, cmdWord, BitVec.getLsbD_or, getLsbD_field, getLsbD_bit, getLsbD_beyond op _ (by decide : 4 ≤ 4 - 0)]
  cases l <;> rfl

@[simp] theorem cmdRsv_cmdWord (m : BitVec 24) (l : Level) (op : BitVec 4) : cmdRsv (cmdWord m l op) = 0#3 := by
  apply BitVec.eq_of_getLsbD_eq
  intro i hi
  simp only [cmdRsv, cmdWord, getLsbD_slice _ _ _ hi, BitVec.getLsbD_or, getLsbD_field, getLsbD_bit]
  rcases (by omega : i = 0 ∨ i = 1 ∨ i = 2) with rfl | rfl | rfl <;> simp

@[simp] theorem cmdMaxw_cmdWord (m : BitVec 24) (l : Level) (op : BitVec 4) : cmdMaxw (cmdWord m l op) = m := by
  apply BitVec.eq_of_getLsbD_eq
  intro i hi
  simp only [cmdMaxw, cmdWord, getLsbD_slice _ _ _ hi, BitVec.getLsbD_or, getLsbD_field, getLsbD_bit,
    getLsbD_beyond op (8 + i - 0) (by omega)]
  simp [show 8 + i < 32 by omega, show 8 + i - 4 ≠ 0 by omega]

@[simp] theorem pinPop_pinWord (t : BitVec 24) (a : Bool) (p : BitVec 3) : pinPop (pinWord t a p) = p := by
  apply BitVec.eq_of_getLsbD_eq
  intro i hi
  simp only [pinPop, pinWord, getLsbD_slice _ _ _ hi, BitVec.getLsbD_or, getLsbD_field, getLsbD_bit]
  rcases (by omega : i = 0 ∨ i = 1 ∨ i = 2) with rfl | rfl | rfl <;> simp

@[simp] theorem pinArg_pinWord (t : BitVec 24) (a : Bool) (p : BitVec 3) : pinArg (pinWord t a p) = a := by
  simp only [pinArg, pinWord, BitVec.getLsbD_or, getLsbD_field, getLsbD_bit, getLsbD_beyond p _ (by decide : 3 ≤ 3 - 0)]
  cases a <;> rfl

@[simp] theorem pinZero_pinWord (t : BitVec 24) (a : Bool) (p : BitVec 3) : pinZero (pinWord t a p) = 0#4 := by
  apply BitVec.eq_of_getLsbD_eq
  intro i hi
  simp only [pinZero, pinWord, getLsbD_slice _ _ _ hi, BitVec.getLsbD_or, getLsbD_field, getLsbD_bit,
    getLsbD_beyond p (4 + i - 0) (by omega)]
  simp [show ¬ 8 ≤ 4 + i by omega, show 4 + i - 3 ≠ 0 by omega]

@[simp] theorem pinTime_pinWord (t : BitVec 24) (a : Bool) (p : BitVec 3) : pinTime (pinWord t a p) = t := by
  apply BitVec.eq_of_getLsbD_eq
  intro i hi
  simp only [pinTime, pinWord, getLsbD_slice _ _ _ hi, BitVec.getLsbD_or, getLsbD_field, getLsbD_bit,
    getLsbD_beyond p (8 + i - 0) (by omega)]
  simp [show 8 + i < 32 by omega, show 8 + i - 3 ≠ 0 by omega]

/-- A bit of a field read from a word, at any index. -/
theorem getLsbD_slice' {w n : Nat} (pos : Nat) (v : BitVec w) (i : Nat) :
    (v.extractLsb' pos n).getLsbD i = (decide (i < n) && v.getLsbD (pos + i)) :=
  BitVec.getLsbD_extractLsb' pos n v i

/-- A command word whose `RSV` bits are 0 is built from its fields. -/
theorem cmdWord_fields (v : Word) (h : cmdRsv v = 0#3) : cmdWord (cmdMaxw v) (cmdLvl v) (cmdOp v) = v := by
  have hr : ∀ j, j < 3 → v.getLsbD (5 + j) = false := fun j hj => by
    rw [← getLsbD_slice 5 v j hj, show v.extractLsb' 5 3 = 0#3 from h]; simp
  apply BitVec.eq_of_getLsbD_eq
  intro i hi
  simp only [cmdWord, cmdMaxw, cmdLvl, cmdOp, bit_levelOfBit, BitVec.getLsbD_or, getLsbD_field, getLsbD_bit, getLsbD_slice']
  rcases (show i < 4 ∨ i = 4 ∨ (∃ j, j < 3 ∧ i = 5 + j) ∨ 8 ≤ i by
    by_cases hk : 5 ≤ i ∧ i < 8
    · exact .inr (.inr (.inl ⟨i - 5, by omega, by omega⟩))
    · omega) with h1 | rfl | ⟨j, hj, rfl⟩ | h1
  · simp [hi, h1, show ¬ 8 ≤ i by omega, show ¬ 4 ≤ i by omega]
  · simp
  · simp [hr j hj, show ¬ 8 ≤ 5 + j by omega, show ¬ 5 + j < 4 by omega, show 5 + j - 4 ≠ 0 by omega]
  · simp [hi, h1, show 8 + (i - 8) = i by omega, show i - 8 < 24 by omega, show i - 4 ≠ 0 by omega, show ¬ i < 4 by omega]

/-- A pin request word whose bits [7:4] are 0 is built from its fields. -/
theorem pinWord_fields (v : Word) (h : pinZero v = 0#4) : pinWord (pinTime v) (pinArg v) (pinPop v) = v := by
  have hr : ∀ j, j < 4 → v.getLsbD (4 + j) = false := fun j hj => by
    rw [← getLsbD_slice 4 v j hj, show v.extractLsb' 4 4 = 0#4 from h]; simp
  apply BitVec.eq_of_getLsbD_eq
  intro i hi
  simp only [pinWord, pinTime, pinArg, pinPop, BitVec.getLsbD_or, getLsbD_field, getLsbD_bit, getLsbD_slice']
  rcases (show i < 3 ∨ i = 3 ∨ (∃ j, j < 4 ∧ i = 4 + j) ∨ 8 ≤ i by
    by_cases hk : 4 ≤ i ∧ i < 8
    · exact .inr (.inr (.inl ⟨i - 4, by omega, by omega⟩))
    · omega) with h1 | rfl | ⟨j, hj, rfl⟩ | h1
  · simp [hi, h1, show ¬ 8 ≤ i by omega, show ¬ 3 ≤ i by omega]
  · simp
  · simp [hr j hj, show ¬ 8 ≤ 4 + j by omega, show ¬ 4 + j < 3 by omega, show 4 + j - 3 ≠ 0 by omega]
  · simp [hi, h1, show 8 + (i - 8) = i by omega, show i - 8 < 24 by omega, show i - 3 ≠ 0 by omega, show ¬ i < 3 by omega]

/-- A time that fits its field is kept by the field. -/
@[simp] theorem toNat_time {t : Nat} (h : t ≤ 2 ^ 24 - 1) : (BitVec.ofNat 24 t).toNat = t := by
  simp [BitVec.toNat_ofNat]; omega

end Sys2Proof
end

