-- ==== Sys2Proof/Laws/PerInstr.lean ====
section
/-! SUPPORT. The family `RowMatch`, one lemma for each constructor of `Instr`: the word of a well-formed instruction belongs
to a row of the table of its own port (R93, R100). -/

namespace Sys2Proof.Laws.RowMatch

/-- The word of a well-formed instruction belongs to a row of its port's table. -/
def Statement (i : Instr) : Prop :=
  i.wf = true → (tableOf i.format).any (fun r => r.accepts (encode i)) = true

theorem read : Statement .read := fun _ => by decide
theorem beginTxn : Statement .beginTxn := fun _ => by decide
theorem ackchk : Statement .ackchk := fun _ => by decide
theorem sample : Statement .sample := fun _ => by decide
theorem validate : Statement .validate := fun _ => by decide
theorem idle : Statement .idle := fun _ => by decide
theorem setLevel (l : Level) : Statement (.setLevel l) := fun _ => by cases l <;> decide
theorem setDirection (dir : Dir) : Statement (.setDirection dir) := fun _ => by cases dir <;> decide
theorem readLevel : Statement .readLevel := fun _ => by decide

/-- A mask that keeps only bits below 8 drops a field placed at bit 8. -/
theorem masked_time (t : BitVec 24) (low mask : Word) (h : ∀ i, 8 ≤ i → mask.getLsbD i = false) :
    (field 8 t ||| low) &&& mask = low &&& mask := by
  apply BitVec.eq_of_getLsbD_eq
  intro i hi
  simp only [BitVec.getLsbD_and, BitVec.getLsbD_or, getLsbD_field]
  by_cases h8 : 8 ≤ i
  · simp [h i h8]
  · simp [h8]

/-- A mask below 256 has no bit at 8 or above. -/
theorem low_mask (m : Word) (hm : m.toNat < 2 ^ 8) (i : Nat) (hi : 8 ≤ i) : m.getLsbD i = false :=
  Nat.testBit_lt_two_pow (Nat.lt_of_lt_of_le hm (Nat.pow_le_pow_right (by decide) hi))

theorem waitl (lvl : Level) (maxw : Nat) : Statement (.waitl lvl maxw) := fun _ => by
  have h : (encode (.waitl lvl maxw) &&& 0x000000EF#32) = 0x00000006#32 := by
    rw [encode, cmdWord, BitVec.or_assoc, masked_time _ _ _ (low_mask _ (by decide))]
    cases lvl <;> decide
  simp [Instr.format, tableOf, cmdTable, OpRow.accepts, h]

theorem waitForLevel (l : Level) (t : Nat) : Statement (.waitForLevel l t) := fun _ => by
  have h : (encode (.waitForLevel l t) &&& 0x000000F7#32) = 0x00000003#32 := by
    rw [encode, pinWord, BitVec.or_assoc, masked_time _ _ _ (low_mask _ (by decide))]
    cases l <;> decide
  simp [Instr.format, tableOf, pinTable, OpRow.accepts, h]

theorem delay (t : Nat) : Statement (.delay t) := fun _ => by
  have h : (encode (.delay t) &&& 0x000000FF#32) = 0x00000004#32 := by
    rw [encode, pinWord, BitVec.or_assoc, masked_time _ _ _ (low_mask _ (by decide))]
    decide
  simp [Instr.format, tableOf, pinTable, OpRow.accepts, h]

end Sys2Proof.Laws.RowMatch
end

