-- ==== Sys2Proof/Tests/Slice0.lean ====
section
/-! SUPPORT. Tests: the checks of WellFormed refuse, words written out from the spec decode, single steps match the
spec's vectors, and for every statement with hypotheses a state and operands meet them. Expected values come from the
files of spec/ named in the comments. -/

namespace Sys2Proof.Tests

open Sys2Proof.Machine

/-! ## WellFormed refuses (R9, R91, R99) -/

theorem test_wf_waitl : (Instr.waitl .low (2 ^ 24)).wf = false ∧ (Instr.waitl .low (2 ^ 24 - 1)).wf = true := by decide
theorem test_wf_wait : (Instr.waitForLevel .high (2 ^ 24)).wf = false := by decide
theorem test_wf_delay : (Instr.delay (2 ^ 24)).wf = false := by decide
theorem test_default_legal : Config.default.legal = true := by decide
theorem test_hold_short : ({ Config.default with holdUs := 17999 } : Config).legal = false := by decide
theorem test_hold_least : ({ Config.default with holdUs := 18000 } : Config).legal = true := by decide
theorem test_hold_wide : ({ Config.default with holdUs := 2 ^ 24 } : Config).legal = false := by decide
theorem test_zero_band_empty : ({ Config.default with zeroMin := 34 } : Config).legal = false := by decide
theorem test_bands_overlap : ({ Config.default with zeroMax := 65 } : Config).legal = false := by decide
theorem test_one_band_empty : ({ Config.default with oneMin := 76 } : Config).legal = false := by decide
theorem test_ack_band_empty : ({ Config.default with ackMin := 86 } : Config).legal = false := by decide
theorem test_bands_wide :
    ({ Config.default with oneMax := 2 ^ 16, tBitHigh := 2 ^ 16 } : Config).legal = false ∧
    ({ Config.default with ackMax := 2 ^ 16, tAckPhase := 2 ^ 16 } : Config).legal = false ∧
    ({ Config.default with ackMin := 2 ^ 16, ackMax := 2 ^ 16, tAckPhase := 2 ^ 16 } : Config).legal = false ∧
    ({ Config.default with oneMin := 2 ^ 16, oneMax := 2 ^ 16, tBitHigh := 2 ^ 16 } : Config).legal = false ∧
    ({ Config.default with zeroMax := 2 ^ 16, oneMin := 2 ^ 16 + 1, oneMax := 2 ^ 16 + 1 } : Config).legal = false ∧
    ({ Config.default with zeroMin := 2 ^ 16, zeroMax := 2 ^ 16 } : Config).legal = false := by decide
theorem test_ack_start_zero : ({ Config.default with tAckStart := 0 } : Config).legal = false := by decide
theorem test_ack_start_wide : ({ Config.default with tAckStart := 2 ^ 16 } : Config).legal = false := by decide
theorem test_ack_phase_short : ({ Config.default with tAckPhase := 84 } : Config).legal = false := by decide
theorem test_ack_phase_wide : ({ Config.default with tAckPhase := 2 ^ 16 } : Config).legal = false := by decide
theorem test_bit_low_zero : ({ Config.default with tBitLow := 0 } : Config).legal = false := by decide
theorem test_bit_low_wide : ({ Config.default with tBitLow := 2 ^ 16 } : Config).legal = false := by decide
theorem test_bit_high_short : ({ Config.default with tBitHigh := 74 } : Config).legal = false := by decide
theorem test_bit_high_wide : ({ Config.default with tBitHigh := 2 ^ 16 } : Config).legal = false := by decide

/-! ## Decoding, a word for each constructor (R92, R93, R100, R101; 95_test_vectors.md L2.1) -/

theorem test_decode_read : decode .cmd 0b00000000000000000000000000000001#32 = .ok .read := by decide
theorem test_decode_begin : decode .cmd 0b00000000000000000000000000000010#32 = .ok .beginTxn := by decide
theorem test_decode_ackchk : decode .cmd 0b00000000000000000000000000000011#32 = .ok .ackchk := by decide
theorem test_decode_sample : decode .cmd 0b00000000000000000000000000000100#32 = .ok .sample := by decide
theorem test_decode_validate : decode .cmd 0b00000000000000000000000000000101#32 = .ok .validate := by decide
theorem test_decode_waitl :
    decode .cmd 0b00000000000000000110010000010110#32 = .ok (.waitl .high 100) ∧
    decode .cmd 0x00000006#32 = .ok (.waitl .low 0) := by decide
theorem test_decode_idle : decode .cmd 0b00000000000000000000000000000111#32 = .ok .idle := by decide
theorem test_decode_set_level :
    decode .pinreq 0b00000000000000000000000000001000#32 = .ok (.setLevel .high) ∧
    decode .pinreq 0x00000000#32 = .ok (.setLevel .low) := by decide
theorem test_decode_set_direction :
    decode .pinreq 0b00000000000000000000000000001001#32 = .ok (.setDirection .output) ∧
    decode .pinreq 0x00000001#32 = .ok (.setDirection .input) := by decide
theorem test_decode_read_level : decode .pinreq 0b00000000000000000000000000000010#32 = .ok .readLevel := by decide
theorem test_decode_wait :
    decode .pinreq 0b00000000000000000110010000001011#32 = .ok (.waitForLevel .high 100) ∧
    decode .pinreq 0x00006403#32 = .ok (.waitForLevel .low 100) := by decide
theorem test_decode_delay : decode .pinreq 0b00000000010011100010000000000100#32 = .ok (.delay 20000) := by decide

/-- L2.1: the illegal command words. -/
theorem test_decode_illegal :
    [0x00#32, 0x08#32, 0x0F#32, 0x11#32, 0x17#32, 0x101#32, 0x26#32, 0x86#32].all
      (fun v => (decode .cmd v).toOption = none) = true := by decide

/-- R99, R100: reserved pin request words. -/
theorem test_decode_reserved_request :
    decode .pinreq 0x00000005#32 = .error .reservedPop ∧ decode .pinreq 0x00000010#32 = .error .reservedRequestBits ∧
    decode .pinreq 0x0000000A#32 = .error .reservedRequestBits ∧ decode .pinreq 0x0000000C#32 = .error .reservedRequestBits ∧
    decode .pinreq 0x00000100#32 = .error .reservedRequestBits := by decide

/-- R102: reserved and ill-formed answer records. -/
theorem test_decode_reserved_answer :
    decodeAnswer ⟨5#3, 0#32⟩ = .error .reservedKind ∧ decodeAnswer ⟨0#3, 1#32⟩ = .error .reservedData ∧
    decodeAnswer ⟨1#3, 1#32⟩ = .ok (.okLevel .high) ∧ decodeAnswer ⟨1#3, 2#32⟩ = .error .reservedData ∧
    decodeAnswer ⟨4#3, 7#32⟩ = .ok (.fault 7#32) := by decide

/-- The opcode table's words; log entry 1 says how a word's port is taken. -/
theorem test_table_words :
    decodeTableWord 32 1 = some .read ∧ decodeTableWord 8 6 = some (.waitl .low 0) ∧
    decodeTableWord 32 0 = some (.setLevel .low) ∧ decodeTableWord 32 9 = some (.setDirection .output) ∧
    decodeTableWord 8 3 = some (.waitForLevel .low 0) ∧ decodeTableWord 8 4 = some (.delay 0) ∧
    decodeTableWord 32 0xFF = none := by decide

/-! ## Single steps -/

/-- The state of a command in a phase, with an answer on the pin port. -/
def during (p : Phase) (op : BitVec 4) (a : Answer) : State :=
  { State.reset with
    dec := { Decoder.reset with phase := p, busy := true, op := op }
    pinAns := some (encodeAnswer a) }

/-- The state after a result, or reset if there is none. -/
def after (r : Result) : State :=
  match r with
  | .next t => t
  | _ => State.reset

/-- A host access as the only move. -/
def hostStep (a : HostAccess) (s : State) : State := after (step { s with script := [.host a] })

/-- A placed table word is the next step's instruction: `PHASE` and `LASTOP` of L2.8's `STATUS` words. -/
theorem test_placed_read : (after (step (State.reset.withFetchWord 32 1))).dec.phase = .bDirOut := by decide
theorem test_placed_set_level : (after (step (State.reset.withFetchWord 32 8))).dec.plvl = .high := by decide
theorem test_placed_wait : (after (step (State.reset.withFetchWord 8 3))).script = [] := by decide

/-- L2.0. -/
theorem test_read_cfg_hold : (hostStep (.memRead 9 4) State.reset).rdata = 0x00004E20#32 := by decide
theorem test_read_cfg_one : (hostStep (.memRead 11 4) State.reset).rdata = 0x004B0041#32 := by decide
theorem test_write_raw0 :
    readRegister Config.default (hostStep (.memWrite 6 4 0x44332211#32) State.reset).dec 6 = 0x44332211#32 ∧
    (hostStep (.memWrite 6 4 0x44332211#32) State.reset).dec.raw = #v[0x11#8, 0x22#8, 0x33#8, 0x44#8, 0#8] := by decide
theorem test_write_raw1 :
    readRegister Config.default (hostStep (.memWrite 7 4 0xABCDEF99#32) State.reset).dec 7 = 0x00000099#32 := by decide

/-- L2.8: an illegal word; `READ` accepted. -/
theorem test_illegal_status :
    readRegister Config.default (hostStep (.memWrite 0 4 0#32) State.reset).dec 1 = 0x00040000#32 := by decide
theorem test_read_accepted_status :
    readRegister Config.default (hostStep (.memWrite 0 4 1#32) State.reset).dec 1 = 0x00400101#32 := by decide

/-- L2.3: `Fault(0x11)` at `B_DIR_OUT`. -/
theorem test_begin_fault :
    readRegister Config.default (after (exec (.setDirection .output) (during .bDirOut 0x2#4 (.fault 0x11#32)))).dec 1
      = 0x00800062#32 ∧
    readRegister Config.default (after (exec (.setDirection .output) (during .bDirOut 0x2#4 (.fault 0x11#32)))).dec 2
      = 0x01000000#32 := by decide

/-- L2.5: 74 fails and 75 passes in the acknowledgment low phase. -/
theorem test_ack_edges :
    (after (exec (.waitForLevel .high 100) (during .ackLow 0x3#4 (.okDur 74#32)))).dec.err = .ackPulseOutOfRange ∧
    (after (exec (.waitForLevel .high 100) (during .ackLow 0x3#4 (.okDur 75#32)))).dec.phase = .ackHigh := by decide

/-- L2.4: the bound of `WAITL` is the latched one. -/
theorem test_waitl_timeout :
    (after (exec (.waitForLevel .low 0) (during .waitL 0x6#4 .timeout))).dec.ephase = .waitL := by decide

/-- L2.6: the edges of `classify`. -/
theorem test_classify :
    [20#32, 21#32, 33#32, 34#32, 48#32, 64#32, 65#32, 75#32, 76#32].map (classify Config.default) =
      [none, some false, some false, none, none, none, some true, some true, none] := by decide

/-- L2.7: sums that carry out of eight bits. -/
theorem test_checksum :
    checksum 0x80#8 0x80#8 0#8 0#8 = 0#8 ∧ checksum 0xFF#8 0xFF#8 0xFF#8 0xFF#8 = 0xFC#8 ∧
    checksum 0x32#8 0#8 0x1B#8 0#8 = 0x4D#8 := by decide

/-- R78: bit 2 of the reference frame is a one and bit 39 is a one, by its digits in 95_test_vectors.md. -/
theorem test_frame_bits :
    (List.range 8).map (frameBit #v[0x32#8, 0#8, 0x1B#8, 0#8, 0x4D#8]) =
      [false, false, true, true, false, false, true, false] ∧
    frameBit #v[0x32#8, 0#8, 0x1B#8, 0#8, 0x4D#8] 39 = true := by decide

/-- R162: a one shifted into the byte of bit 9. -/
theorem test_shift : shiftIn #v[0xFF#8, 0x01#8, 0#8, 0#8, 0#8] 9 true = #v[0xFF#8, 0x03#8, 0#8, 0#8, 0#8] := by decide

/-- R133, R134: the first answers on the reference train (L2.2). -/
theorem test_ideal :
    idealAnswer (refTrain Frame.zero) 0 (.waitForLevel .low 100) = (.okDur 30#32, 30) ∧
    idealAnswer [(.low, 500), (.high, 0)] 0 (.waitForLevel .high 100) = (.timeout, 100) := by decide

/-! ## The hypotheses of the statements can be met -/

/-- A legal, idle, finished state: after a successful `IDLE` (L2.8). -/
def finished : State :=
  { State.reset with
    dec := { Decoder.reset with op := 0x7#4, done := true, ok := true, pdir := .output, plvl := .high } }

/-- A state that samples bit 0 for `SAMPLE`, with its request outstanding. -/
def sampling : State :=
  { State.reset with
    dec := { Decoder.reset with op := 0x4#4, busy := true, phase := .bitLow }
    pinReq := some 0x0000640B#32 }

theorem finished_consistent : finished.dec.Consistent := by
  constructor <;> decide

theorem sampling_consistent : sampling.dec.Consistent := by
  constructor <;> decide

theorem finished_inv (ms : List Move) : ({ finished with script := ms } : State).Inv :=
  ⟨test_default_legal, finished_consistent, rfl, rfl⟩

theorem sampling_inv (ms : List Move) : ({ sampling with script := ms } : State).Inv :=
  ⟨test_default_legal, sampling_consistent, rfl, (by decide : sampling.pinReq = (requestOf sampling.cfg sampling.dec).map encode)⟩

theorem test_hyp_DecodeOfEncodeIsTheInstruction : (Instr.waitForLevel .high (2 ^ 24 - 1)).wf = true := by decide
theorem test_hyp_EncodeOfDecodeIsTheWord :
    decode .cmd 0xFFFFFF16#32 = .ok (.waitl .high 16777215) ∧ decode .pinreq 0xFFFFFF04#32 = .ok (.delay 16777215) := by
  decide
theorem test_hyp_TimedRequestWordsAreTimeLevelOperation : ∃ t : Nat, t ≤ 2 ^ 24 - 1 := ⟨2 ^ 24 - 1, by decide⟩
theorem test_hyp_AnswerRecordsAreUnambiguous :
    decodeAnswer ⟨1#3, 1#32⟩ = .ok (.okLevel .high) ∧ 5 ≤ (⟨5#3, 0#32⟩ : AnswerRec).kind.toNat := by decide

theorem test_hyp_StepRunsTheDecodedInstruction :
    (∃ (s : State) (v : Word) (i : Instr) (rest : List Move), s.cfg.legal = true ∧
      s.script = .host (.memWrite 0 4 v) :: rest ∧ decode .cmd v = .ok i) ∧
    (∃ (s : State) (r : AnswerRec) (w : Word) (i : Instr) (rest : List Move), s.cfg.legal = true ∧
      s.script = .answer r :: rest ∧ s.pinReq = some w ∧ decode .pinreq w = .ok i) :=
  ⟨⟨State.reset.withFetchWord 32 1, 1#32, .read, [], by decide⟩,
   ⟨State.reset.withFetchWord 32 8, encodeAnswer .ok, 8#32, .setLevel .high, [], by decide⟩⟩

theorem test_hyp_IllegalConfigurationHasNoRun :
    step { State.reset with cfg := { Config.default with holdUs := 17999 } } = .refused .illegalConfiguration := by
  rfl

theorem test_hyp_HostReadHasNoSideEffect :
    ∃ (s : State) (idx : Nat) (rest : List Move), s.cfg.legal = true ∧ idx < 16 ∧
      s.script = .host (.memRead idx 4) :: .host (.memRead idx 4) :: rest :=
  ⟨{ State.reset with script := [.host (.memRead 15 4), .host (.memRead 15 4)] }, 15, [], by decide⟩

theorem test_hyp_ConfigurationRegistersShowTheParameters :
    Config.default.legal = true ∧
    ∃ (s : State) (idx : Nat) (v : Word) (rest : List Move), s.cfg.legal = true ∧ 9 ≤ idx ∧ idx ≤ 14 ∧
      s.script = .host (.memWrite idx 4 v) :: rest :=
  ⟨by decide, { State.reset with script := [.host (.memWrite 14 4 0#32)] }, 14, 0#32, [], by decide⟩

theorem test_hyp_IdleHostWriteLoadsRawOrIsDiscarded :
    ∀ idx : Nat, ∃ (s : State) (v : Word) (rest : List Move), s.cfg.legal = true ∧ s.dec.busy = false ∧
      s.script = .host (.memWrite idx 4 v) :: rest ∧ decode .cmd v = .ok .idle :=
  fun idx => ⟨{ State.reset with script := [.host (.memWrite idx 4 7#32)] }, 7#32, [], test_default_legal, rfl, rfl,
    test_decode_idle⟩

theorem test_hyp_BusyHostWriteIsDiscarded :
    ∀ idx : Nat, ∃ (s : State) (v : Word) (rest : List Move), s.cfg.legal = true ∧ s.dec.busy = true ∧
      s.script = .host (.memWrite idx 4 v) :: rest :=
  fun idx => ⟨{ sampling with script := [.host (.memWrite idx 4 1#32)] }, 1#32, [], test_default_legal, rfl, rfl⟩

theorem test_hyp_IllegalCommandWordIsNotExecuted :
    (∃ (s : State) (rest : List Move), s.cfg.legal = true ∧ s.script = .host (.memWrite 0 4 0x17#32) :: rest ∧
      s.dec.busy = false) ∧
    (∃ (s : State) (rest : List Move), s.cfg.legal = true ∧ s.script = .host (.memWrite 0 4 0x17#32) :: rest ∧
      s.dec.busy = true) ∧
    ¬ (((0x17#32).extractLsb' 0 4 ∈ [0x1#4, 0x2#4, 0x3#4, 0x4#4, 0x5#4, 0x7#4] ∧ (0x17#32).extractLsb' 4 28 = 0#28) ∨
       ((0x17#32).extractLsb' 0 4 = 0x6#4 ∧ (0x17#32).extractLsb' 5 3 = 0#3)) :=
  ⟨⟨{ State.reset with script := [.host (.memWrite 0 4 0x17#32)] }, [], by decide⟩,
   ⟨{ sampling with script := [.host (.memWrite 0 4 0x17#32)] }, [], by decide⟩, by decide⟩

theorem test_hyp_AccessesThatDoNotExistAreRefused :
    (∃ (s : State) (rest : List Move), s.cfg.legal = true ∧ s.script = .host (.memRead 1 2) :: rest) ∧
    (∃ (s : State) (rest : List Move), s.cfg.legal = true ∧ s.script = .host (.memWrite 16 4 0#32) :: rest) :=
  ⟨⟨{ State.reset with script := [.host (.memRead 1 2)] }, [], by decide⟩,
   ⟨{ State.reset with script := [.host (.memWrite 16 4 0#32)] }, [], by decide⟩⟩

theorem test_hyp_ReadBeginIdleAreAccepted : State.reset.dec.busy = false := by decide
theorem test_hyp_AckchkSampleValidateWaitlAreAccepted :
    finished.dec.busy = false ∧ ∃ t : Nat, t ≤ 2 ^ 24 - 1 := ⟨rfl, 0, by decide⟩
theorem test_hyp_CommandWhileBusyIsTurnedAway : Instr.read.format = .cmd ∧ sampling.dec.busy = true := by decide

theorem test_hyp_SetLevelAnsweredOk :
    [Phase.bLow, .bHigh, .idleLvl].all (fun p =>
      (during p 0x1#4 .ok).dec.phase = p ∧ (during p 0x1#4 .ok).answered .ok) = true := by decide
theorem test_hyp_SetDirectionAnsweredOk :
    [Phase.bDirOut, .bDirIn, .idleDir].all (fun p =>
      (during p 0x1#4 .ok).dec.phase = p ∧ (during p 0x1#4 .ok).answered .ok) = true := by decide
theorem test_hyp_DelayAnsweredOk :
    (during .bHold 0x1#4 .ok).dec.phase = .bHold ∧ (during .bHold 0x1#4 .ok).answered .ok := by decide
theorem test_hyp_ForeignRequestHasItsOwnEffectOnly :
    (during .check 0x1#4 .ok).answered .ok ∧
    requestOf Config.default (during .check 0x1#4 .ok).dec ≠ some (.setLevel .low) ∧
    requestOf Config.default (during .check 0x1#4 .ok).dec ≠ some (.setDirection .input) ∧
    requestOf Config.default (during .bHold 0x1#4 .ok).dec ≠ some (.delay 19999) ∧
    (during .check 0x1#4 (.okDur 5#32)).answered (.okDur 5#32) ∧
    requestOf Config.default (during .check 0x1#4 (.okDur 5#32)).dec ≠ some (.waitForLevel .low 100) ∧
    (during .idle 0x1#4 (.okLevel .high)).answered (.okLevel .high) := by decide
theorem test_hyp_HandshakeWaitAnsweredInBand :
    [Phase.ackStart, .ackLow, .ackHigh, .waitL].all (fun p => [0x1#4, 0x2#4, 0x3#4].all (fun op =>
      (during p op (.okDur 85#32)).dec.phase = p ∧ (during p op (.okDur 85#32)).dec.op = op ∧
      (during p op (.okDur 85#32)).answered (.okDur 85#32))) = true ∧
    Config.default.ackMin ≤ (85#32).toNat ∧ (85#32).toNat ≤ Config.default.ackMax := by decide

/-- A `bitHigh` state at a bit index. -/
def atBit (i : BitVec 6) (op : BitVec 4) (a : Answer) : State :=
  { during .bitHigh op a with dec := { (during .bitHigh op a).dec with bitidx := i } }

theorem test_hyp_SamplingWaitAnsweredInBand :
    (during .bitLow 0x4#4 (.okDur 50#32)).answered (.okDur 50#32) ∧
    [(0#6, 0), (8#6, 1), (23#6, 2), (31#6, 3), (38#6, 4)].all (fun p =>
      (atBit p.1 0x1#4 (.okDur 70#32)).dec.bitidx.toNat / 8 = p.2 ∧
      (atBit p.1 0x1#4 (.okDur 70#32)).dec.bitidx.toNat < 39 ∧
      (atBit p.1 0x1#4 (.okDur 70#32)).answered (.okDur 70#32)) = true ∧
    (atBit 39#6 0x4#4 (.okDur 70#32)).dec.bitidx.toNat = 39 ∧ (atBit 39#6 0x4#4 (.okDur 70#32)).dec.op = 0x4#4 ∧
    (atBit 39#6 0x1#4 (.okDur 70#32)).dec.op = 0x1#4 ∧
    classify Config.default 70#32 = some true ∧ classify Config.default 27#32 = some false := by decide

theorem test_hyp_timeouts :
    [Phase.ackStart, .ackLow, .ackHigh, .bitLow, .bitHigh, .waitL].all (fun p =>
      (during p 0x1#4 .timeout).dec.phase = p ∧ (during p 0x1#4 .timeout).answered .timeout) = true := by decide
theorem test_hyp_DurationOutOfBandIsRecorded :
    [Phase.ackLow, .ackHigh, .bitHigh].all (fun p =>
      (during p 0x1#4 (.okDur 34#32)).dec.phase = p ∧ (during p 0x1#4 (.okDur 34#32)).answered (.okDur 34#32)) = true ∧
    ¬ (Config.default.ackMin ≤ (34#32).toNat ∧ (34#32).toNat ≤ Config.default.ackMax) ∧
    ¬ (Config.default.zeroMin ≤ (34#32).toNat ∧ (34#32).toNat ≤ Config.default.zeroMax) ∧
    ¬ (Config.default.oneMin ≤ (34#32).toNat ∧ (34#32).toNat ≤ Config.default.oneMax) ∧
    (atBit 39#6 0x1#4 (.okDur 34#32)).dec.bitidx.toNat < 40 ∧ (atBit 39#6 0x1#4 (.okDur 34#32)).dec.phase = .bitHigh ∧
    (atBit 39#6 0x1#4 (.okDur 34#32)).answered (.okDur 34#32) := by decide
theorem test_hyp_PinFaultIsRecorded :
    Instr.readLevel.format = .pinreq ∧ (during .bitLow 0x1#4 (.fault 9#32)).answered (.fault 9#32) ∧
    (internalStep { State.reset with dec := { Decoder.reset with err := .pinFault } }).dec.err = .pinFault := by decide
theorem test_hyp_AnswerOutsideDomainIsRefused :
    (Instr.delay 0).format = .pinreq ∧ (during .bHold 0x1#4 .timeout).answered .timeout ∧
    ({ sampling with pinAns := some ⟨7#3, 0#32⟩ } : State).pinAns = some ⟨7#3, 0#32⟩ ∧
    5 ≤ (⟨7#3, 0#32⟩ : AnswerRec).kind.toNat := by decide
theorem test_hyp_BandsAreInclusiveAndDisjoint :
    Config.default.legal = true ∧ classify Config.default 21#32 = some false ∧ classify Config.default 75#32 = some true ∧
    ackOk Config.default 75#32 = true := by decide
theorem test_hyp_CheckStepBuildsTheMeasurementOrFails :
    (∃ (s : State) (rest : List Move), s.cfg.legal = true ∧ s.dec.phase = .check ∧ s.script = .internal :: rest ∧
      (s.dec.raw[0].toNat + s.dec.raw[1].toNat + s.dec.raw[2].toNat + s.dec.raw[3].toNat) % 256 = s.dec.raw[4].toNat) ∧
    (∃ (s : State) (rest : List Move), s.cfg.legal = true ∧ s.dec.phase = .check ∧ s.script = .internal :: rest ∧
      (s.dec.raw[0].toNat + s.dec.raw[1].toNat + s.dec.raw[2].toNat + s.dec.raw[3].toNat) % 256 ≠ s.dec.raw[4].toNat) :=
  ⟨⟨{ State.reset with
      dec := { Decoder.reset with phase := .check, busy := true, raw := #v[0x80#8, 0x80#8, 0#8, 0#8, 0#8] }
      script := [.internal] }, [], by decide⟩,
   ⟨{ State.reset with
      dec := { Decoder.reset with phase := .check, busy := true, raw := #v[0x32#8, 0#8, 0x1B#8, 0#8, 0#8] }
      script := [.internal] }, [], by decide⟩⟩
theorem test_hyp_ResetClearsTheBlock :
    (∃ (s : State) (rest : List Move), s.cfg.legal = true ∧ s.script = .reset :: rest) ∧
    (∃ (s : State) (r : AnswerRec) (rest : List Move), s.cfg.legal = true ∧ s.script = .reset :: .answer r :: rest) :=
  ⟨⟨{ sampling with script := [.reset] }, [], by decide⟩,
   ⟨{ sampling with script := [.reset, .answer (encodeAnswer .ok)] }, encodeAnswer .ok, [], by decide⟩⟩
theorem test_hyp_UnansweredRequestWaits :
    (Instr.delay 0).format = .pinreq ∧ sampling.pinAns = none ∧ sampling.cfg.legal = true ∧ sampling.script = [] ∧
    sampling.dec.phase ≠ .check ∧
    [0#8, 1#8].all (fun c =>
      let s : State := { State.reset with
        dec := { Decoder.reset with phase := .check, busy := true, raw := #v[0#8, 0#8, 0#8, 0#8, c] } }
      s.cfg.legal ∧ s.script = [] ∧ s.dec.phase = .check ∧ s.dec.raw[4] = c ∧ frameSum s.dec.raw = 0#8) = true := by
  decide
theorem test_hyp_IdleBlockTakesNoDecoderStep :
    ∃ (s : State) (m : Move) (rest : List Move), s.Inv ∧ s.dec.phase = .idle ∧ s.script = m :: rest ∧
      (m = .internal ∨ ∃ r, m = .answer r) :=
  ⟨{ finished with script := [.answer (encodeAnswer .ok)] }, _, [], finished_inv _, rfl, rfl, .inr ⟨_, rfl⟩⟩

/-- For the statements about every step from a state that meets the invariant. -/
theorem test_hyp_invariant_steps :
    (∃ s t : State, s.Inv ∧ step s = .next t ∧ s.dec.SamplingFrame ∧ t.dec.phase = .bitHigh) ∧
    (∃ s t : State, s.Inv ∧ step s = .next t ∧ t.dec.phase = .bitLow ∧ s.dec.phase ≠ .bitLow ∧ s.dec.phase ≠ .bitHigh) :=
  ⟨⟨{ sampling with script := [.answer (encodeAnswer (.okDur 50#32))] }, _, sampling_inv _, rfl,
      fun _ => by unfold partialFrame; decide, by decide⟩,
   ⟨{ finished with script := [.host (.memWrite 0 4 0x4#32)] }, _, finished_inv _, rfl, by decide⟩⟩

/-- For the statements about every step: a flag is set, kept, and a Measurement is written. -/
theorem test_hyp_every_step :
    (∃ s t : State, step s = .next t ∧ s.dec.ill = false ∧ t.dec.ill = true) ∧
    (∃ s t : State, step s = .next t ∧ s.dec.ovr = false ∧ t.dec.ovr = true ∧ (∀ rest, s.script ≠ .reset :: rest)) ∧
    (∃ s t : State, step s = .next t ∧ s.dec.ill = true ∧ s.dec.ovr = true ∧ (∀ rest, s.script ≠ .reset :: rest)) ∧
    (∃ s t : State, step s = .next t ∧ (∀ rest, s.script ≠ .reset :: rest) ∧
      (t.dec.meas ≠ s.dec.meas ∨ t.dec.mvalid ≠ s.dec.mvalid)) ∧
    (∃ s t : State, step s = .next t ∧ s.dec.busy = true ∧ t.dec.done = true ∧ t.dec.ok = false) ∧
    (∃ s t : State, step s = .next t ∧ (∀ rest, s.script ≠ .host (.memRead 5 4) :: rest)) :=
  ⟨⟨{ State.reset with script := [.host (.memWrite 0 4 0#32)] }, _, rfl, by decide⟩,
   ⟨{ sampling with script := [.host (.memWrite 7 4 0#32)] }, _, rfl, by decide, by decide, by simp⟩,
   ⟨{ State.reset with dec := { Decoder.reset with ill := true, ovr := true } }, _, rfl, by decide, by decide,
     by simp [State.reset]⟩,
   ⟨{ State.reset with dec := { Decoder.reset with phase := .check, busy := true } }, _, rfl, by simp [State.reset], by decide⟩,
   ⟨{ sampling with script := [.answer (encodeAnswer .timeout)] }, _, rfl, by decide⟩,
   ⟨State.reset, _, rfl, by simp [State.reset]⟩⟩

theorem test_hyp_BeginRunsToCompletion :
    ∃ (s : State) (d : Word) (rest : List Move), s.cfg.legal = true ∧ s.dec.busy = false ∧
      s.script = .host (.memWrite 0 4 0x00000002#32) :: (answers [.ok, .ok, .ok, .ok, .ok, .okDur d] ++ rest) :=
  ⟨{ State.reset with script := .host (.memWrite 0 4 0x00000002#32) :: (answers [.ok, .ok, .ok, .ok, .ok, .okDur 30#32] ++ []) },
    30#32, [], by decide, rfl, rfl⟩
theorem test_hyp_ShortCommandsRunToCompletion :
    State.reset.cfg.legal = true ∧ State.reset.dec.busy = false ∧ ackOk State.reset.cfg 75#32 = true ∧
    ackOk State.reset.cfg 85#32 = true ∧ frameSum State.reset.dec.raw = State.reset.dec.raw[4] ∧
    (∃ t : Nat, t ≤ 2 ^ 24 - 1) ∧ ∀ ms : List Move, ({ State.reset with script := ms } : State).script = ms :=
  ⟨by decide, rfl, by decide, by decide, by decide, ⟨0, by decide⟩, fun _ => rfl⟩

/-- The durations of the reference train's bits (R134). -/
def trainBits (f : Frame) : List (Word × Word) :=
  (List.range 40).map fun i => (50#32, if frameBit f i then 70#32 else 27#32)

/-- They carry the frame, whichever it is. -/
theorem train_carries (f : Frame) : carries Config.default f (trainBits f) := by
  have zero : classify Config.default 27#32 = some false := by decide
  have one : classify Config.default 70#32 = some true := by decide
  refine ⟨by simp [trainBits], fun i p h => ?_⟩
  simp only [trainBits, List.getElem?_map, Option.map_eq_some_iff] at h
  obtain ⟨j, hj, rfl⟩ := h
  obtain ⟨-, rfl⟩ := List.getElem?_eq_some_iff.mp hj
  cases hb : frameBit f i <;> simp [hb, zero, one]

/-- Whole transfers of the frames of S5, which passes the check, and of S6, which fails it (95_test_vectors.md L1). -/
theorem test_hyp_whole_transfers :
    [0x4D#8, 0x00#8].all (fun c => (frameSum #v[0x32#8, 0#8, 0x1B#8, 0#8, c] == c) == (c == 0x4D#8)) = true ∧
    (∀ f : Frame, ∃ (s : State) (ds : List (Word × Word)) (last : Word × Word),
      s.cfg.legal = true ∧ s.dec.busy = false ∧ ackOk s.cfg 80#32 = true ∧ carries s.cfg f ds ∧ ds[39]? = some last ∧
      s.cfg = Config.default ∧ (∃ a, exec .read s = .next a) ∧
      (∀ ms : List Move, ({ s with script := ms } : State).script = ms)) ∧
    (0x32 + 0x00 + 0x1B + 0x00) % 256 ≠ (0x00#8).toNat :=
  ⟨by decide,
   fun f => ⟨State.reset, trainBits f, _, test_default_legal, rfl, by decide, train_carries f, rfl, rfl, ⟨_, rfl⟩,
     fun _ => rfl⟩,
   by decide⟩

/-- An environment that answers every request plainly, and a command in flight. -/
theorem test_hyp_AnsweredCommandEnds :
    (∀ i : Instr, i.format = .pinreq → inDomain i (plainAnswer i) = true) ∧ sampling.Inv ∧ sampling.dec.busy = true :=
  ⟨fun i h => by cases i <;> simp [Instr.format, inDomain, plainAnswer] at h ⊢, sampling_inv [], rfl⟩

/-- R130, R132: a wait of 100 µs answered with a duration 50 µs after its start, and the hold answered on time. -/
theorem test_dutiful :
    dutiful (.waitForLevel .low 100) ⟨.okDur 50#32, 50⟩ ∧ dutiful (.delay 20000) ⟨.ok, 20000⟩ ∧
    ¬ dutiful (.waitForLevel .low 100) ⟨.timeout, 99⟩ ∧
    ¬ dutiful (.waitForLevel .low 100) ⟨.okDur 50#32, 101 + Config.timeoutSlackUs⟩ := by
  simp [dutiful, answeredInTime, inDomain]
  omega

end Sys2Proof.Tests
end

/-! SUPPORT. The refusals of a step (R9): what each operation can refuse with, said once, and the legality of a configuration
as the constraints of R8 and R9. From a legal configuration no move is refused as from an illegal one. -/

namespace Sys2Proof.Machine

/-! ## What each operation can refuse with -/

/-- An acceptance step is never refused. -/
theorem command_ne_refused (s : State) (d : Decoder) (r : Refusal) : command s d ≠ .refused r := by
  cases hb : s.dec.busy with
  | true => simp [command_busy hb]
  | false => simp [command_idle hb]

/-- All that a refused pin exchange can be: a reserved answer record (R102), or an answer outside the domain (R122). -/
theorem pinCall_refused_cases {s : State} {req : Instr} {k : Answer → Decoder → Decoder} {r : Refusal}
    (h : pinCall req s k = .refused r) :
    (∃ ans e, s.pinAns = some ans ∧ decodeAnswer ans = .error e ∧ r = .reservedAnswer) ∨
    (∃ ans a, s.pinAns = some ans ∧ decodeAnswer ans = .ok a ∧ inDomain req a = false ∧ r = .answerOutsideDomain) := by
  cases hp : s.pinAns with
  | none => simp [pinCall_waits hp] at h
  | some ans =>
    cases ha : decodeAnswer ans with
    | error e =>
      simp only [pinCall, hp, ha, Host.Outcome.refused.injEq] at h
      exact .inl ⟨ans, e, rfl, ha, h.symm⟩
    | ok a =>
      cases hd : inDomain req a with
      | false =>
        simp only [pinCall, hp, ha, hd, Bool.false_eq_true, if_false, Host.Outcome.refused.injEq] at h
        exact .inr ⟨ans, a, rfl, ha, hd, h.symm⟩
      | true =>
        by_cases hf : ∃ e, a = .fault e
        · obtain ⟨e, rfl⟩ := hf
          simp [pinCall_fault hp ha hd] at h
        · simp [pinCall_answer hp ha hd (not_exists.mp hf)] at h

/-- All that a refused instruction can be: a pin request whose answer is reserved or outside its domain. -/
theorem exec_refused_cases {i : Instr} {s : State} {r : Refusal} (h : exec i s = .refused r) :
    i.format = .pinreq ∧ (r = .reservedAnswer ∨ r = .answerOutsideDomain) := by
  have pin : ∀ req k, pinCall req s k = .refused r → r = .reservedAnswer ∨ r = .answerOutsideDomain := fun req k hk => by
    obtain ⟨_, _, _, _, hr⟩ | ⟨_, _, _, _, _, hr⟩ := pinCall_refused_cases hk
    · exact .inl hr
    · exact .inr hr
  cases i with
  | read | beginTxn | ackchk | sample | validate | waitl | idle => exact absurd h (command_ne_refused s _ r)
  | setLevel | setDirection | readLevel | waitForLevel | delay =>
    simp only [exec, execSetLevel, execSetDirection, execReadLevel, execWaitForLevel, execDelay] at h
    exact ⟨rfl, pin _ _ h⟩

/-! ## No move is refused as from an illegal configuration -/

theorem exec_ne_illegalConfiguration (i : Instr) (s : State) : exec i s ≠ .refused .illegalConfiguration := fun h => by
  obtain ⟨-, hr | hr⟩ := exec_refused_cases h <;> cases hr

theorem writeCmd_ne_illegalConfiguration (v : Word) (s : State) :
    writeCmd v s ≠ .refused .illegalConfiguration := by
  cases hd : decode .cmd v with
  | ok i => simpa [writeCmd, hd] using exec_ne_illegalConfiguration i s
  | error e => cases hb : s.dec.busy <;> simp [writeCmd, hd, hb]

/-- A write of `raw` is never refused: it is made or discarded (R75, R76). -/
theorem writeRaw_ne_refused (f : Frame) (s : State) (r : Refusal) : writeRaw f s ≠ .refused r := by
  cases hb : s.dec.busy <;> simp [writeRaw, hb]

theorem writeRegister_ne_illegalConfiguration (idx : Nat) (v : Word) (s : State) :
    writeRegister idx v s ≠ .refused .illegalConfiguration := by
  unfold writeRegister
  split
  · exact writeCmd_ne_illegalConfiguration v s
  · exact writeRaw_ne_refused _ s _
  · exact writeRaw_ne_refused _ s _
  · simp

theorem hostMove_ne_illegalConfiguration (a : HostAccess) (s : State) :
    hostMove a s ≠ .refused .illegalConfiguration := by
  cases a with
  | memRead idx width =>
    by_cases hw : width = 4 <;> by_cases hi : 16 ≤ idx <;> simp [hostMove, hw, hi]
  | memWrite idx width v =>
    by_cases hw : width = 4
    · by_cases hi : 16 ≤ idx
      · simp [hostMove, hw, hi]
      · simpa [hostMove, hw, hi] using writeRegister_ne_illegalConfiguration idx v s
    · simp [hostMove, hw]

theorem answerMove_ne_illegalConfiguration (r : AnswerRec) (s : State) :
    answerMove r s ≠ .refused .illegalConfiguration := by
  cases hp : s.pinReq with
  | none => simp [answerMove, hp]
  | some w =>
    cases hd : decode .pinreq w with
    | error e => simp [answerMove, hp, hd]
    | ok i => simpa [answerMove, hp, hd] using exec_ne_illegalConfiguration i { s with pinAns := some r }

theorem doMove_ne_illegalConfiguration (m : Move) (s : State) : doMove m s ≠ .refused .illegalConfiguration := by
  cases m with
  | host a => exact hostMove_ne_illegalConfiguration a s
  | answer r => exact answerMove_ne_illegalConfiguration r s
  | internal => simp [doMove]
  | reset => simp [doMove]

theorem nextMove_ne_illegalConfiguration (s : State) : nextMove s ≠ .refused .illegalConfiguration := by
  cases hs : s.script with
  | nil => simp [nextMove_nil hs]
  | cons m rest => simpa [nextMove_cons hs] using doMove_ne_illegalConfiguration m { s with script := rest }

/-! ## The refusal of a step, and the constraints -/

/-- R9: the reason `illegalConfiguration` says no more and no less than that the configuration is illegal. -/
theorem step_refused_illegalConfiguration_iff (s : State) :
    step s = .refused .illegalConfiguration ↔ ¬ s.cfg.legal = true := by
  constructor
  · intro h hl
    exact nextMove_ne_illegalConfiguration s (step_legal hl ▸ h)
  · intro hl
    simp [step, hl]

/-- R8, R9 without the bounds on the lower thresholds, which follow from the order of the bands. -/
theorem legal_iff_constraints (c : Config) :
    c.legal = true ↔
      (18000 ≤ c.holdUs ∧ c.holdUs ≤ 2 ^ 24 - 1 ∧
        c.zeroMin ≤ c.zeroMax ∧ c.zeroMax < c.oneMin ∧ c.oneMin ≤ c.oneMax ∧
        c.oneMax ≤ 2 ^ 16 - 1 ∧ c.ackMin ≤ c.ackMax ∧ c.ackMax ≤ 2 ^ 16 - 1 ∧
        1 ≤ c.tAckStart ∧ c.tAckStart ≤ 2 ^ 16 - 1 ∧
        c.ackMax ≤ c.tAckPhase ∧ c.tAckPhase ≤ 2 ^ 16 - 1 ∧
        1 ≤ c.tBitLow ∧ c.tBitLow ≤ 2 ^ 16 - 1 ∧
        c.oneMax ≤ c.tBitHigh ∧ c.tBitHigh ≤ 2 ^ 16 - 1) := by
  simp only [Config.legal, fitsTime, decide_eq_true_eq]
  omega

/-- Settles O9: the step tests the legality of the configuration, and no move gives that reason on its own. -/
theorem illegalConfigurationHasNoRun : Obligations.IllegalConfigurationHasNoRun := fun s => by
  rw [step_refused_illegalConfiguration_iff, legal_iff_constraints]

end Sys2Proof.Machine

/-! SUPPORT. The registers as words built from fields (R12, R37, R48): the bits and slices of a placed field, inside it and
beside it, and its number. -/

namespace Sys2Proof

theorem Dir.bit_eq_true_iff (r : Dir) : r.bit = true ↔ r = .output := by cases r <;> decide

theorem Level.bit_eq_true_iff (l : Level) : l.bit = true ↔ l = .high := by cases l <;> decide

/-! ## A placed field -/

/-- A field places nothing at a bit beside it. -/
theorem getLsbD_field_beside {n : Nat} {pos i : Nat} (x : BitVec n) (h : i < pos ∨ pos + n ≤ i) :
    (field pos x).getLsbD i = false := by
  rw [getLsbD_field]
  rcases h with h | h
  · simp [show ¬ pos ≤ i by omega]
  · simp [getLsbD_beyond x (i - pos) (by omega)]

/-- A flag is the bit at its position. -/
theorem getLsbD_field_flag {pos : Nat} (b : Bool) (h : pos < 32) :
    (field pos (BitVec.ofBool b)).getLsbD pos = b := by
  simp only [getLsbD_field, getLsbD_bit, h, Nat.le_refl, Nat.sub_self, decide_true, Bool.true_and]

/-- The slice at a field's own position is the field. -/
@[simp] theorem slice_field_same {n : Nat} {pos : Nat} (x : BitVec n) (h : pos + n ≤ 32) :
    (field pos x).extractLsb' pos n = x := by
  apply BitVec.eq_of_getLsbD_eq
  intro i hi
  rw [getLsbD_slice _ _ _ hi, getLsbD_field]
  simp [show pos + i < 32 by omega]

/-- A field places nothing in a slice beside it. -/
@[simp] theorem slice_field_beside {n m : Nat} {pos p : Nat} (x : BitVec n) (h : p + m ≤ pos ∨ pos + n ≤ p) :
    (field pos x).extractLsb' p m = 0#m := by
  apply BitVec.eq_of_getLsbD_eq
  intro i hi
  rw [getLsbD_slice _ _ _ hi, getLsbD_field_beside x (by omega)]
  simp

/-- A field that fits above its position is a number of units of that position. -/
theorem toNat_field {n : Nat} {pos : Nat} (x : BitVec n) (h : n + pos ≤ 32) : (field pos x).toNat = x.toNat <<< pos := by
  have hn : x.toNat < 2 ^ 32 := Nat.lt_of_lt_of_le x.isLt (Nat.pow_le_pow_right (by decide) (by omega))
  have hs : x.toNat <<< pos < 2 ^ 32 :=
    Nat.lt_of_lt_of_le (Nat.shiftLeft_lt x.isLt) (Nat.pow_le_pow_right (by decide) h)
  rw [field, BitVec.toNat_shiftLeft, BitVec.toNat_setWidth, Nat.mod_eq_of_lt hn, Nat.mod_eq_of_lt hs]

end Sys2Proof

namespace Sys2Proof.Machine

/-! ## `STATUS` -/

/-- R37: the one-bit fields of `STATUS`. -/
theorem statusWord_flags (d : Decoder) :
    (statusWord d).getLsbD 0 = d.busy ∧ (statusWord d).getLsbD 1 = d.done ∧ (statusWord d).getLsbD 2 = d.ok ∧
    (statusWord d).getLsbD 3 = d.mvalid ∧ (statusWord d).getLsbD 18 = d.ill ∧ (statusWord d).getLsbD 19 = d.ovr ∧
    (statusWord d).getLsbD 20 = d.pdir.bit ∧ (statusWord d).getLsbD 21 = d.plvl.bit := by
  simp (disch := decide) only [statusWord, BitVec.getLsbD_or, getLsbD_field_beside, getLsbD_field_flag, Bool.or_false,
    Bool.false_or, and_self]

/-- R37: the wider fields of `STATUS`, and the bits above them. -/
theorem statusWord_slices (d : Decoder) :
    (statusWord d).extractLsb' 4 4 = d.err.code ∧ (statusWord d).extractLsb' 8 4 = d.phase.code ∧
    (statusWord d).extractLsb' 12 6 = d.bitidx ∧ (statusWord d).extractLsb' 22 4 = d.op ∧
    (statusWord d).extractLsb' 26 6 = 0#6 := by
  simp [statusWord, BitVec.extractLsb'_or]

/-- Settles O11: the codes by their tables, and the fields of `STATUS` by their positions, no two of which overlap. -/
theorem statusShowsItsFields : Obligations.StatusShowsItsFields := by
  refine ⟨fun e => by cases e <;> rfl, fun p => by cases p <;> rfl, fun cfg d => ?_⟩
  obtain ⟨busy, done, ok, mvalid, ill, ovr, pdir, plvl⟩ := statusWord_flags d
  obtain ⟨err, phase, bitidx, op, above⟩ := statusWord_slices d
  exact ⟨rfl, busy, done, ok, mvalid, err, phase, bitidx, ill, ovr,
    pdir ▸ Dir.bit_eq_true_iff d.pdir, plvl ▸ Level.bit_eq_true_iff d.plvl, op, above⟩

/-! ## The configuration registers -/

/-- R48: a pair of 16-bit parameters as a number, the second in the high half. -/
theorem toNat_pairWord {low high : Nat} (hl : low ≤ 2 ^ 16 - 1) (hh : high ≤ 2 ^ 16 - 1) :
    (pairWord low high).toNat = high * 2 ^ 16 + low := by
  have hlow : (BitVec.ofNat 16 low).toNat = low := by rw [BitVec.toNat_ofNat]; omega
  have hhigh : (BitVec.ofNat 16 high).toNat = high := by rw [BitVec.toNat_ofNat]; omega
  rw [pairWord, BitVec.toNat_or, toNat_field _ (by decide), toNat_field _ (by decide), hlow, hhigh, Nat.shiftLeft_zero,
    ← Nat.shiftLeft_add_eq_or_of_lt (by omega), Nat.shiftLeft_eq]

/-! ## Host writes -/

/-- A host access at the head of the script is the next step (R77, R82). -/
theorem step_host {s : State} {a : HostAccess} {rest : List Move} (hl : s.cfg.legal = true)
    (hs : s.script = .host a :: rest) : step s = hostMove a { s with script := rest } := by
  rw [step_legal hl, nextMove_cons hs, doMove]

/-- A whole word written to a register that exists (R72, R73). -/
theorem hostMove_memWrite {idx : Nat} (h : idx < 16) (v : Word) (s : State) :
    hostMove (.memWrite idx 4 v) s = writeRegister idx v s := by
  simp [hostMove, show ¬ 16 ≤ idx by omega]

/-- R75: a write of any register but `CMD`, `RAW0` and `RAW1` is discarded. -/
theorem writeRegister_discarded {idx : Nat} (h0 : idx ≠ 0) (h6 : idx ≠ 6) (h7 : idx ≠ 7) (v : Word) (s : State) :
    writeRegister idx v s = .next s := by
  unfold writeRegister
  split
  · exact absurd rfl h0
  · exact absurd rfl h6
  · exact absurd rfl h7
  · rfl

/-- Settles O13: each parameter of a legal configuration fits its field, and indices 9 to 14 take no write. -/
theorem configurationRegistersShowTheParameters : Obligations.ConfigurationRegistersShowTheParameters := by
  constructor
  · intro cfg d hl
    obtain ⟨-, hold, zero, gap, one, oneMax, ack, ackMax, -, tAckStart, -, tAckPhase, -, tBitLow, -, tBitHigh⟩ :=
      (legal_iff_constraints cfg).mp hl
    refine ⟨?_, toNat_pairWord ?_ ?_, toNat_pairWord ?_ oneMax, toNat_pairWord ?_ ackMax,
      toNat_pairWord tAckStart tAckPhase, toNat_pairWord tBitLow tBitHigh⟩
    · rw [readRegister, toNat_field _ (by decide), toNat_time hold, Nat.shiftLeft_zero]
    all_goals omega
  · intro s idx v rest hl h9 h14 hs
    rw [step_host hl hs, hostMove_memWrite (by omega), writeRegister_discarded (by omega) (by omega) (by omega)]

end Sys2Proof.Machine

/-! SUPPORT. The host port (R74 to R76): what each kind of access does, in an idle and in a busy block. -/

namespace Sys2Proof.Machine

/-! ## Runs and reads -/

theorem runs_of_step {s t : State} (h : step s = .next t) (n : Nat) : runs (n + 1) s = runs n t := by
  simp [runs, h]

/-- A whole word read from a register that exists (R72 to R74). -/
theorem hostMove_memRead {idx : Nat} (h : idx < 16) (s : State) :
    hostMove (.memRead idx 4) s = .next { s with rdata := readRegister s.cfg s.dec idx } := by
  simp [hostMove, show ¬ 16 ≤ idx by omega]

/-- A read at the head of the script is the next step. -/
theorem step_memRead {s : State} {idx : Nat} {rest : List Move} (hl : s.cfg.legal = true) (hi : idx < 16)
    (hs : s.script = .host (.memRead idx 4) :: rest) :
    step s = .next { s with script := rest, rdata := readRegister s.cfg s.dec idx } := by
  rw [step_host hl hs, hostMove_memRead hi]

/-- Settles O10: a read writes `rdata` only, and no register's value depends on `rdata`. -/
theorem hostReadHasNoSideEffect : Obligations.HostReadHasNoSideEffect := by
  intro s idx rest hl hi
  refine ⟨step_memRead hl hi, fun hs => ?_⟩
  have again := step_memRead (s := { s with
    script := .host (.memRead idx 4) :: rest, rdata := readRegister s.cfg s.dec idx }) hl hi rfl
  exact (runs_of_step (step_memRead hl hi hs) 1).trans (runs_of_step again 0)

/-! ## Writes -/

/-- A whole word written at the head of the script is the next step. -/
theorem step_memWrite {s : State} {idx : Nat} {v : Word} {rest : List Move} (hl : s.cfg.legal = true) (hi : idx < 16)
    (hs : s.script = .host (.memWrite idx 4 v) :: rest) :
    step s = writeRegister idx v { s with script := rest } := by
  rw [step_host hl hs, hostMove_memWrite hi]

/-- A legal word written to `CMD` is the fetch of its command (R194). -/
theorem step_command {s : State} {v : Word} {i : Instr} {rest : List Move} (hl : s.cfg.legal = true)
    (hd : decode .cmd v = .ok i) (hs : s.script = .host (.memWrite 0 4 v) :: rest) :
    step s = exec i { s with script := rest } := by
  rw [step_memWrite hl (by decide) hs, writeRegister, writeCmd, hd]

/-- R75, R76: a write of a register other than `CMD`, `RAW0` and `RAW1` is discarded, idle or busy. -/
theorem step_memWrite_discarded {s : State} {idx : Nat} {v : Word} {rest : List Move} (hl : s.cfg.legal = true)
    (hi : (1 ≤ idx ∧ idx ≤ 5) ∨ (8 ≤ idx ∧ idx ≤ 15)) (hs : s.script = .host (.memWrite idx 4 v) :: rest) :
    step s = .next { s with script := rest } := by
  rw [step_memWrite hl (by omega) hs, writeRegister_discarded (by omega) (by omega) (by omega)]

theorem writeRaw_idle {s : State} (h : s.dec.busy = false) (f : Frame) :
    writeRaw f s = .next { s with dec := s.dec.loadRaw f } := by
  simp [writeRaw, h]

theorem writeRaw_busy {s : State} (h : s.dec.busy = true) (f : Frame) :
    writeRaw f s = .next { s with dec := s.dec.markOvr } := by
  simp [writeRaw, h]

/-- Settles O14: by the kinds of register; the lanes of the written word are `lane` of R79. -/
theorem idleHostWriteLoadsRawOrIsDiscarded : Obligations.IdleHostWriteLoadsRawOrIsDiscarded := by
  intro s v rest hl hb
  have raw := writeRaw_idle (s := { s with script := rest }) hb
  exact ⟨fun i hd hs => step_command hl hd hs,
    fun hs => (step_memWrite hl (by decide) hs).trans (raw (withRaw0 s.dec.raw v)),
    fun hs => (step_memWrite hl (by decide) hs).trans (raw (withRaw1 s.dec.raw v)),
    fun idx hi hs => step_memWrite_discarded hl hi hs⟩

/-! ## The busy lock -/

theorem bareCommand_ok {v : Word} {i j : Instr} (h : bareCommand v i = .ok j) : j = i := by
  unfold bareCommand at h
  split at h
  · exact (Except.ok.inj h).symm
  · cases h

/-- A word on `CMD` is never read as a pin request (R90, R92). -/
theorem format_of_decode_cmd {v : Word} {i : Instr} (h : decode .cmd v = .ok i) : i.format = .cmd := by
  simp only [decode, decodeCmd] at h
  split_ifs at h
  any_goals (cases bareCommand_ok h; rfl)
  -- `WAITL` is left, the one command with operands.
  cases h
  rfl

/-- R76, R194: a command that arrives while busy is turned away with `OVR`. -/
theorem exec_command_busy {i : Instr} {s : State} (hf : i.format = .cmd) (hb : s.dec.busy = true) :
    exec i s = .next { s with dec := s.dec.markOvr } := by
  cases i with
  | read | beginTxn | ackchk | sample | validate | waitl | idle => exact command_busy hb _
  | setLevel | setDirection | readLevel | waitForLevel | delay => cases hf

/-- R76, R96: while busy any word written to `CMD`, legal or not, is turned away with `OVR`. -/
theorem writeCmd_busy {s : State} (h : s.dec.busy = true) (v : Word) :
    writeCmd v s = .next { s with dec := s.dec.markOvr } := by
  cases hd : decode .cmd v with
  | ok i => rw [writeCmd, hd]; exact exec_command_busy (format_of_decode_cmd hd) h
  | error e => simp [writeCmd, hd, h]

/-- R76: while busy a write of `CMD`, `RAW0` or `RAW1` sets `OVR`. -/
theorem writeRegister_locked {idx : Nat} {s : State} (hi : idx = 0 ∨ idx = 6 ∨ idx = 7) (h : s.dec.busy = true)
    (v : Word) : writeRegister idx v s = .next { s with dec := s.dec.markOvr } := by
  obtain rfl | rfl | rfl := hi
  · exact writeCmd_busy h v
  · exact writeRaw_busy h _
  · exact writeRaw_busy h _

/-- Settles O15: the three writable registers are locked, and the others take no write. -/
theorem busyHostWriteIsDiscarded : Obligations.BusyHostWriteIsDiscarded := by
  intro s v idx rest hl hb hs
  exact ⟨fun hi => (step_memWrite hl (by omega) hs).trans (writeRegister_locked (s := { s with script := rest }) hi hb v),
    fun hi => step_memWrite_discarded hl hi hs⟩

end Sys2Proof.Machine

/-! SUPPORT. Runs in which the environment answers: what a run issues on the pin port, the round trips of the request and the
answer through the port, and the step of an answered wait. -/

namespace Sys2Proof.Machine

/-! ## Runs that count the requests -/

/-- `n` steps lead from `s` to `t` and take the answers of `m` requests. -/
structure RunsIssuing (n m : Nat) (s t : State) : Prop where
  run : runs n s = .next t
  count : (issued n s).length = m

/-- A run of more than no steps is its first step and the run after it. -/
theorem step_of_runs {n : Nat} {s t : State} (h : runs (n + 1) s = .next t) :
    ∃ u, step s = .next u ∧ runs n u = .next t := by
  cases hs : step s with
  | next u => exact ⟨u, rfl, runs_of_step hs n ▸ h⟩
  | fault f => cases f
  | refused r => simp [runs, hs] at h

theorem runs_add {m : Nat} {s t : State} (h : runs m s = .next t) (n : Nat) : runs (m + n) s = runs n t := by
  induction m generalizing s with
  | zero => cases h; rw [Nat.zero_add]
  | succ m ih =>
    obtain ⟨u, hs, hu⟩ := step_of_runs h
    rw [Nat.succ_add, runs_of_step hs, ih hu]

theorem issued_of_step {s t : State} (h : step s = .next t) (n : Nat) : issued (n + 1) s = issued 1 s ++ issued n t := by
  simp [issued, h]

theorem issued_add {m : Nat} {s t : State} (h : runs m s = .next t) (n : Nat) :
    issued (m + n) s = issued m s ++ issued n t := by
  induction m generalizing s with
  | zero => cases h; rw [Nat.zero_add, issued, List.nil_append]
  | succ m ih =>
    obtain ⟨u, hs, hu⟩ := step_of_runs h
    rw [Nat.succ_add, issued_of_step hs, issued_of_step hs m, ih hu, List.append_assoc]

theorem RunsIssuing.trans {n m n' m' : Nat} {s t u : State} (h : RunsIssuing n m s t) (h' : RunsIssuing n' m' t u) :
    RunsIssuing (n + n') (m + m') s u where
  run := (runs_add h.run n').trans h'.run
  count := by rw [issued_add h.run, List.length_append, h.count, h'.count]

/-- A host access issues no request. -/
theorem RunsIssuing.host {s t : State} {a : HostAccess} {rest : List Move} (hs : s.script = .host a :: rest)
    (h : step s = .next t) : RunsIssuing 1 0 s t where
  run := runs_of_step h 0
  count := by simp [issued, hs, h]

/-- An answer to an outstanding request takes that one request. -/
theorem RunsIssuing.answer {s t : State} {r : AnswerRec} {w : Word} {rest : List Move} (hs : s.script = .answer r :: rest)
    (hq : s.pinReq = some w) (h : step s = .next t) : RunsIssuing 1 1 s t where
  run := runs_of_step h 0
  count := by simp [issued, hs, hq, h]

/-! ## Through the pin port and back -/

/-- R102: an answer is read back from its record. -/
@[simp] theorem decodeAnswer_encodeAnswer (a : Answer) : decodeAnswer (encodeAnswer a) = .ok a := by
  cases a with
  | okLevel l => cases l <;> rfl
  | ok | okDur | timeout | fault => rfl

/-- R99, R100: a pin request whose time fits is read back from its word. -/
theorem decode_encode_request {i : Instr} (hf : i.format = .pinreq) (hw : i.wf = true) :
    decode .pinreq (encode i) = .ok i := by
  cases i with
  | read | beginTxn | ackchk | sample | validate | waitl | idle => cases hf
  | setLevel | setDirection | readLevel => simp [decode, encode, decodePin]
  | waitForLevel | delay => simp [decode, encode, decodePin, toNat_time (of_decide_eq_true hw)]

/-- R8, R104: every phase's own request is one of the pin port, and its time fits. -/
theorem requestOf_wf {cfg : Config} {d : Decoder} {i : Instr} (hl : cfg.legal = true) (h : requestOf cfg d = some i) :
    i.format = .pinreq ∧ i.wf = true := by
  have wmax := d.wmax.isLt
  have bounds := (legal_iff_constraints cfg).mp hl
  unfold requestOf at h
  split at h <;> cases h <;> simp only [Instr.format, Instr.wf, fitsTime, decide_eq_true_eq, true_and]
  all_goals omega

/-! ## Between two steps of a command -/

/-- `s` with the decoder's record `d`, its phase's request outstanding (R104), and the moves `ms` still to come: what every
step of a command leaves (R196). -/
def State.awaiting (s : State) (ms : List Move) (d : Decoder) : State := { s with script := ms }.settle d

@[simp] theorem State.awaiting_dec (s : State) (ms : List Move) (d : Decoder) : (s.awaiting ms d).dec = d := rfl
@[simp] theorem State.awaiting_cfg (s : State) (ms : List Move) (d : Decoder) : (s.awaiting ms d).cfg = s.cfg := rfl
@[simp] theorem State.awaiting_pinReq (s : State) (ms : List Move) (d : Decoder) :
    (s.awaiting ms d).pinReq = (requestOf s.cfg d).map encode := rfl
@[simp] theorem State.awaiting_script (s : State) (ms : List Move) (d : Decoder) : (s.awaiting ms d).script = ms := rfl

/-- An answer runs the outstanding request with the answer on the port (R121). -/
theorem step_awaiting {s : State} {d : Decoder} {i : Instr} (hl : s.cfg.legal = true) (hr : requestOf s.cfg d = some i)
    (r : AnswerRec) (ms : List Move) :
    step (s.awaiting (.answer r :: ms) d) = exec i { s.awaiting ms d with pinAns := some r } := by
  obtain ⟨hf, hw⟩ := requestOf_wf hl hr
  rw [step_legal (s := s.awaiting _ d) hl, nextMove_cons rfl, doMove, answerMove]
  simp only [State.awaiting_pinReq, hr, Option.map_some, decode_encode_request hf hw]
  rfl

/-- R124, R196: the phase's own wait, answered with a duration. -/
theorem exec_wait_okDur {s : State} {l : Level} {t : Nat} {w : Word} (hr : requestOf s.cfg s.dec = some (.waitForLevel l t))
    (ha : s.answered (.okDur w)) :
    exec (.waitForLevel l t) s = .next (s.settle ((s.dec.setDur w).afterOkDur s.cfg w)) := by
  have own : requestOf s.cfg (s.dec.setDur w) = some (.waitForLevel l t) := (requestOf_congr rfl rfl rfl).trans hr
  rw [exec, execWaitForLevel, pinCall_answer ha (decodeAnswer_encodeAnswer _) rfl (by simp)]
  simp only [whenOwn_own own]

/-- The step of a wait answered with a duration: the command goes on by R197. -/
theorem RunsIssuing.okDur {s : State} {d : Decoder} {l : Level} {t : Nat} (hl : s.cfg.legal = true)
    (hr : requestOf s.cfg d = some (.waitForLevel l t)) (w : Word) (ms : List Move) :
    RunsIssuing 1 1 (s.awaiting (.answer (encodeAnswer (.okDur w)) :: ms) d)
      (s.awaiting ms ((d.setDur w).afterOkDur s.cfg w)) := by
  refine .answer (w := encode (.waitForLevel l t)) rfl (by simp [hr]) ?_
  exact (step_awaiting hl hr _ ms).trans (exec_wait_okDur hr rfl)

end Sys2Proof.Machine

/-! SUPPORT. The sampling loop (R78, R160 to R163): the frame after i bits, one bit's two steps, and the whole loop, as
`SAMPLE` and `READ` share it. -/

namespace Sys2Proof.Machine

/-! ## The frame after i bits -/

/-- R162: what `raw` holds once the bits 0..i-1 of a frame are shifted in: of byte k its upper `i - 8k` bits, at most all
eight, right-aligned. -/
def frameUpTo (f : Frame) (i : Nat) : Frame := Vector.ofFn fun k => f[k] >>> (8 - (i - 8 * k.val))

@[simp] theorem getElem_frameUpTo (f : Frame) (i : Nat) {k : Nat} (h : k < 5) :
    (frameUpTo f i)[k] = f[k] >>> (8 - (i - 8 * k)) := by
  simp [frameUpTo]

theorem frameUpTo_zero (f : Frame) : frameUpTo f 0 = Frame.zero := by
  ext k hk : 1
  rw [getElem_frameUpTo f 0 hk]
  simp [Frame.zero, BitVec.ushiftRight_eq_zero]

theorem frameUpTo_all (f : Frame) : frameUpTo f 40 = f := by
  ext k hk : 1
  rw [getElem_frameUpTo f 40 hk, show 8 - (40 - 8 * k) = 0 by omega, BitVec.ushiftRight_zero]

/-- R78: the upper j bits of a byte with its next one shifted in are its upper j + 1 bits. -/
theorem shiftByte_upper (b : Byte) {j : Nat} (h : j < 8) :
    shiftByte (b >>> (8 - j)) (b.getLsbD (7 - j)) = b >>> (7 - j) := by
  apply BitVec.eq_of_getLsbD_eq
  intro n hn
  simp only [shiftByte, BitVec.getLsbD_or, BitVec.getLsbD_shiftLeft, BitVec.getLsbD_ushiftRight, BitVec.getLsbD_setWidth,
    getLsbD_bit]
  cases n with
  | zero => simp
  | succ n => simp [hn, show 8 - j + n = 7 - j + (n + 1) by omega]

theorem frame_getD (f : Frame) {k : Nat} (h : k < 5) : f.getD k 0#8 = f[k] := by
  simp [Vector.getD, h]

/-- R162: shifting in the next bit of a frame gives the frame one bit further on. -/
theorem shiftIn_frameUpTo (f : Frame) {i : Nat} (h : i < 40) :
    shiftIn (frameUpTo f i) i (frameBit f i) = frameUpTo f (i + 1) := by
  have hb : i / 8 < 5 := by omega
  ext k hk : 1
  simp only [shiftIn, frameBit, Vector.getElem_setIfInBounds, frame_getD _ hb, getElem_frameUpTo]
  split
  case isTrue here =>
    subst here
    rw [show i - 8 * (i / 8) = i % 8 by omega, shiftByte_upper f[i / 8] (by omega)]
    congr 1
    omega
  case isFalse other =>
    congr 1
    omega

/-! ## One bit -/

/-- R160: the decoder's record at the start of bit i of a frame. -/
structure Decoder.Sampling (f : Frame) (i : Nat) (d : Decoder) : Prop where
  phase : d.phase = .bitLow
  index : d.bitidx = BitVec.ofNat 6 i
  raw : d.raw = frameUpTo f i

/-- The decoder's record after the loop, with `w` the last duration (R160, R197): `READ` goes on to the check, and `SAMPLE`
completes. -/
def Decoder.sampled (f : Frame) (w : Word) (d : Decoder) : Decoder :=
  let full := { d with raw := f, bitidx := 40#6, dur := w }
  if d.op = opRead then full.goto .check else full.finishOk

theorem Decoder.Sampling.toNat_index {f : Frame} {i : Nat} {d : Decoder} (h : d.Sampling f i) (hi : i < 40) :
    d.bitidx.toNat = i := by
  rw [h.index, BitVec.toNat_ofNat]
  omega

/-- Bit i of the frame, accepted before the last, leaves the record at the start of the next bit (R162, R197). -/
theorem Decoder.Sampling.acceptBit {f : Frame} {i : Nat} {d : Decoder} (h : d.Sampling f i) (hi : i < 39) :
    (d.acceptBit (frameBit f i)).Sampling f (i + 1) := by
  have hx := h.toNat_index (by omega)
  rw [Decoder.acceptBit, if_pos (by omega)]
  exact ⟨rfl, by simp [h.index, BitVec.ofNat_add], by simp [hx, h.raw, shiftIn_frameUpTo f (by omega : i < 40)]⟩

/-- Bit 39 of the frame completes it (R160, R197). -/
theorem Decoder.Sampling.acceptBit_last {f : Frame} {d : Decoder} (h : d.Sampling f 39) :
    d.acceptBit (frameBit f 39) = d.sampled f d.dur := by
  have hx := h.toNat_index (by decide)
  have full : d.shiftRaw (frameBit f 39) 40#6 = { d with raw := f, bitidx := 40#6 } := by
    rw [Decoder.shiftRaw, hx, h.raw, shiftIn_frameUpTo f (by decide), frameUpTo_all]
  rw [Decoder.acceptBit, if_neg (by omega), full]
  rfl

/-- A bit in between changes nothing that the end of the loop keeps. -/
theorem Decoder.sampled_acceptBit {f : Frame} {i : Nat} {d : Decoder} (h : d.Sampling f i) (hi : i < 39) (c : Bit)
    (w : Word) : (d.acceptBit c).sampled f w = d.sampled f w := by
  have hx := h.toNat_index (by omega)
  rw [Decoder.acceptBit, if_pos (by omega)]
  rfl

/-- The two steps of a bit whose high duration is classified (R160, R161, R197); its low duration is not checked (R163). -/
theorem RunsIssuing.bit {s : State} {d : Decoder} {p : Word × Word} {c : Bit} (hl : s.cfg.legal = true)
    (hp : d.phase = .bitLow) (hc : classify s.cfg p.2 = some c) (ps : List (Word × Word)) (ms : List Move) :
    RunsIssuing 2 2 (s.awaiting (answers (bitAnswers (p :: ps)) ++ ms) d)
      (s.awaiting (answers (bitAnswers ps) ++ ms) ((d.setDur p.2).acceptBit c)) := by
  have low : (d.setDur p.1).afterOkDur s.cfg p.1 = (d.setDur p.1).goto .bitHigh := by
    simp [Decoder.afterOkDur, hp]
  have high : (((d.setDur p.1).goto .bitHigh).setDur p.2).afterOkDur s.cfg p.2 = (d.setDur p.2).acceptBit c := by
    simp only [Decoder.afterOkDur, Decoder.setDur_phase, Decoder.goto_phase, Decoder.afterBitHigh, hc]
    rfl
  have first := RunsIssuing.okDur (d := d) (l := .high) (t := s.cfg.tBitLow) hl (by simp [requestOf, hp]) p.1
    (.answer (encodeAnswer (.okDur p.2)) :: (answers (bitAnswers ps) ++ ms))
  have second := RunsIssuing.okDur (d := (d.setDur p.1).goto .bitHigh) (l := .low) (t := s.cfg.tBitHigh) hl rfl p.2
    (answers (bitAnswers ps) ++ ms)
  rw [low] at first
  rw [high] at second
  exact first.trans second

/-! ## The loop -/

/-- The high durations of the bits from i on carry the frame's bits. -/
def carriesFrom (cfg : Config) (f : Frame) (i : Nat) (ds : List (Word × Word)) : Prop :=
  ∀ j p, ds[j]? = some p → classify cfg p.2 = some (frameBit f (i + j))

theorem carriesFrom_zero {cfg : Config} {f : Frame} {ds : List (Word × Word)} (h : carries cfg f ds) :
    carriesFrom cfg f 0 ds := fun j p hj => by
  rw [Nat.zero_add]
  exact h.2 j p hj

theorem carriesFrom_cons {cfg : Config} {f : Frame} {i : Nat} {p : Word × Word} {ps : List (Word × Word)} :
    carriesFrom cfg f i (p :: ps) ↔ classify cfg p.2 = some (frameBit f i) ∧ carriesFrom cfg f (i + 1) ps := by
  constructor
  · intro h
    refine ⟨h 0 p rfl, fun j q hj => ?_⟩
    rw [Nat.add_assoc, Nat.add_comm 1 j]
    exact h (j + 1) q hj
  · rintro ⟨hp, hps⟩ (_ | j) q hj
    · cases hj
      exact hp
    · rw [← Nat.add_assoc, Nat.add_right_comm]
      exact hps j q hj

/-- R160: from bit i on, the durations of all bits left complete the frame. -/
theorem RunsIssuing.sample_from {s : State} {f : Frame} {last : Word × Word} (hl : s.cfg.legal = true) (ms : List Move)
    {ds : List (Word × Word)} {i : Nat} {d : Decoder} (hd : d.Sampling f i) (hn : i + ds.length = 40)
    (hc : carriesFrom s.cfg f i ds) (hlast : ds.getLast? = some last) :
    RunsIssuing (2 * ds.length) (2 * ds.length) (s.awaiting (answers (bitAnswers ds) ++ ms) d)
      (s.awaiting ms (d.sampled f last.2)) := by
  induction ds generalizing i d with
  | nil => cases hlast
  | cons p ps ih =>
    obtain ⟨hp, hps⟩ := carriesFrom_cons.mp hc
    have hd' : (d.setDur p.2).Sampling f i := ⟨hd.phase, hd.index, hd.raw⟩
    have bit := RunsIssuing.bit hl hd.phase hp ps ms
    rw [List.length_cons] at hn ⊢
    rw [Nat.mul_succ, Nat.add_comm]
    cases ps with
    | nil =>
      cases hlast
      obtain rfl : i = 39 := by simpa using hn
      rw [hd'.acceptBit_last] at bit
      exact bit
    | cons q qs =>
      have hi : i < 39 := by rw [List.length_cons] at hn; omega
      have tail := ih (hd'.acceptBit hi) (by omega) hps (by rwa [List.getLast?_cons_cons] at hlast)
      rw [Decoder.sampled_acceptBit hd' hi] at tail
      exact bit.trans tail

/-- R160: the whole loop, for the command in flight; 80 requests are issued. -/
theorem RunsIssuing.sample_bits {s : State} {f : Frame} {ds : List (Word × Word)} {last : Word × Word} {d : Decoder}
    (hl : s.cfg.legal = true) (hd : d.Sampling f 0) (hc : carries s.cfg f ds) (hlast : ds[39]? = some last)
    (ms : List Move) :
    RunsIssuing 80 80 (s.awaiting (answers (bitAnswers ds) ++ ms) d) (s.awaiting ms (d.sampled f last.2)) := by
  have hn : ds.length = 40 := hc.1
  have hlast' : ds.getLast? = some last := by rw [List.getLast?_eq_getElem?, hn, ← hlast]
  have loop := RunsIssuing.sample_from hl ms hd (by omega) (carriesFrom_zero hc) hlast'
  rwa [hn] at loop

/-! ## `SAMPLE` -/

/-- Acceptance of `SAMPLE` is at the start of bit 0 of any frame (R160, R194). -/
theorem sampling_of_accept (d : Decoder) (f : Frame) : (d.accept (encode .sample) .bitLow).clearRaw.Sampling f 0 :=
  ⟨rfl, rfl, (frameUpTo_zero f).symm⟩

/-- Settles O50: the acceptance of `SAMPLE`, and then the sampling loop. -/
theorem sampleCollectsTheFrame : Obligations.SampleCollectsTheFrame := by
  intro s f ds last rest hl hb hc hlast hs
  have accepted : step s = .next (s.awaiting (answers (bitAnswers ds) ++ rest)
      (s.dec.accept (encode .sample) .bitLow).clearRaw) :=
    (step_command (i := .sample) hl (by decide) hs).trans
      (command_idle (s := { s with script := answers (bitAnswers ds) ++ rest }) hb _)
  have whole := (RunsIssuing.host hs accepted).trans
    (RunsIssuing.sample_bits hl (sampling_of_accept s.dec f) hc hlast rest)
  exact ⟨whole.run, whole.count⟩

end Sys2Proof.Machine

/-! SUPPORT. The legal command words (R93, R96): by their fields, by what the decoder reads, and by the rows of the table,
which name disjoint sets of words; and what an illegal word does on `CMD`. -/

namespace Sys2Proof

/-! ## By the fields -/

/-- R93: a command word is legal by its fields. Bits [31:4] of a command without operands are 0, and bits [7:5] of
`WAITL`. -/
def LegalCommand (v : Word) : Prop :=
  (cmdOp v ∈ [0x1#4, 0x2#4, 0x3#4, 0x4#4, 0x5#4, 0x7#4] ∧ v.extractLsb' 4 28 = 0#28) ∨
  (cmdOp v = 0x6#4 ∧ cmdRsv v = 0#3)

theorem exists_bareCommand_ok_iff (v : Word) (i : Instr) :
    (∃ j, bareCommand v i = .ok j) ↔ v.extractLsb' 4 28 = 0#28 := by
  by_cases h : v.extractLsb' 4 28 = 0#28 <;> simp [bareCommand, h]

/-- R93, R98: the decoder reads the words that are legal by their fields. -/
theorem exists_decodeCmd_ok_iff (v : Word) : (∃ i, decodeCmd v = .ok i) ↔ LegalCommand v := by
  unfold decodeCmd LegalCommand
  split_ifs with h1 h2 h3 h4 h5 h6 rsv h7
  -- the five commands before `WAITL`
  case pos | pos | pos | pos | pos => simp [exists_bareCommand_ok_iff, *]
  -- `WAITL`, with `RSV` all 0 or not
  case pos => simp [h6, rsv]
  case neg => simp [h6, rsv]
  -- `IDLE`, and the reserved codes
  case pos => simp [exists_bareCommand_ok_iff, h7]
  case neg => simp [*]

/-! ## By the rows of the table -/

/-- A mask of one field keeps that field. -/
theorem and_field_allOnes (v : Word) (pos n : Nat) :
    v &&& field pos (BitVec.allOnes n) = field pos (v.extractLsb' pos n) := by
  apply BitVec.eq_of_getLsbD_eq
  intro i hi
  simp only [BitVec.getLsbD_and, getLsbD_field, BitVec.getLsbD_allOnes, getLsbD_slice']
  by_cases h : pos ≤ i
  · simp [h, hi, Bool.and_comm]
  · simp [h]

/-- The row of a command that fixes `OP` and an all-zero field of `n` bits at position `pos`. -/
def zeroFieldRow (pos n : Nat) (op : BitVec 4) : OpRow where
  value := field pos 0#n ||| field 0 op
  mask := field pos (BitVec.allOnes n) ||| field 0 (BitVec.allOnes 4)

theorem zeroFieldRow_accepts_iff {pos n : Nat} (h4 : 4 ≤ pos) (h32 : pos + n ≤ 32) (op : BitVec 4) (v : Word) :
    (zeroFieldRow pos n op).accepts v = true ↔ cmdOp v = op ∧ v.extractLsb' pos n = 0#n := by
  rw [OpRow.accepts, beq_iff_eq, zeroFieldRow, BitVec.and_or_distrib_left, and_field_allOnes, and_field_allOnes]
  constructor
  · intro h
    have low := congrArg (BitVec.extractLsb' 0 4) h
    have high := congrArg (BitVec.extractLsb' pos n) h
    simp (disch := omega) only [BitVec.extractLsb'_or, slice_field_same, slice_field_beside, BitVec.zero_or,
      BitVec.or_zero] at low high
    exact ⟨low, high⟩
  · rintro ⟨rfl, hz⟩
    rw [hz, cmdOp]

/-- R93: six rows fix the whole word, and that of `WAITL` fixes `RSV` and `OP`. -/
theorem cmdTable_eq : cmdTable =
    [zeroFieldRow 4 28 0x1#4, zeroFieldRow 4 28 0x2#4, zeroFieldRow 4 28 0x3#4, zeroFieldRow 4 28 0x4#4,
     zeroFieldRow 4 28 0x5#4, zeroFieldRow 5 3 0x6#4, zeroFieldRow 4 28 0x7#4] := by decide

/-- R93: a word belongs to a row when it is legal by its fields. -/
theorem exists_row_accepts_iff (v : Word) : (∃ r ∈ cmdTable, r.accepts v = true) ↔ LegalCommand v := by
  simp only [cmdTable_eq, LegalCommand, cmdRsv, List.mem_cons, List.not_mem_nil, or_false, or_and_right, exists_or,
    exists_eq_left, zeroFieldRow_accepts_iff (by decide : 4 ≤ 4) (by decide : 4 + 28 ≤ 32),
    zeroFieldRow_accepts_iff (by decide : 4 ≤ 5) (by decide : 5 + 3 ≤ 32)]
  tauto

/-- The rows of the command format that a word belongs to. -/
def matchingRows (v : Word) : List OpRow := cmdTable.filter fun r => r.accepts v

/-- Every row of the command format fixes `OP`. -/
theorem cmdOp_value_of_mem_matchingRows {r : OpRow} {v : Word} (h : r ∈ matchingRows v) : cmdOp r.value = cmdOp v := by
  obtain ⟨hr, acc⟩ := List.mem_filter.mp h
  have fixed : ∀ r ∈ cmdTable, cmdOp r.mask = BitVec.allOnes 4 := by decide
  rw [← beq_iff_eq.mp acc, cmdOp, BitVec.extractLsb'_and, ← cmdOp, ← cmdOp, fixed r hr, BitVec.and_allOnes]

/-- R93: no word belongs to two rows, since no two rows have the same `OP`. -/
theorem length_matchingRows_le_one (v : Word) : (matchingRows v).length ≤ 1 := by
  have distinct : (cmdTable.map fun r => cmdOp r.value).Nodup := by decide
  have same : (matchingRows v).map (fun r => cmdOp r.value) = List.replicate (matchingRows v).length (cmdOp v) := by
    rw [← List.map_const']
    exact List.map_congr_left fun r hr => cmdOp_value_of_mem_matchingRows hr
  have sub : (matchingRows v).Sublist cmdTable := List.filter_sublist
  exact List.nodup_replicate.mp (same ▸ (sub.map fun r : OpRow => cmdOp r.value).nodup distinct)

/-- R93: a word belongs to exactly one row when it is legal by its fields. -/
theorem length_matchingRows_eq_one_iff (v : Word) : (matchingRows v).length = 1 ↔ LegalCommand v := by
  have le := length_matchingRows_le_one v
  rw [← exists_row_accepts_iff, ← List.length_filter_pos_iff, ← matchingRows]
  omega

/-- Settles O4: the decoder and the rows of the table both read `LegalCommand`, and the statement's rows are the table's. -/
theorem commandLegalExactlyWhenOneRowMatches : Obligations.CommandLegalExactlyWhenOneRowMatches := by
  intro v rows matching
  have table : rows = cmdTable.map fun r => (r.value, r.mask) := rfl
  have count : matching.length = (matchingRows v).length := by
    simp only [matching, table, List.filter_map, List.length_map]
    rfl
  rw [count]
  exact ⟨exists_decodeCmd_ok_iff v, (exists_decodeCmd_ok_iff v).trans (length_matchingRows_eq_one_iff v).symm,
    length_matchingRows_le_one v⟩

end Sys2Proof

namespace Sys2Proof.Machine

/-- R96: while idle an illegal word written to `CMD` sets `ILL`. -/
theorem writeCmd_idle_illegal {s : State} {v : Word} (h : s.dec.busy = false) (hv : ¬ LegalCommand v) :
    writeCmd v s = .next { s with dec := s.dec.markIll } := by
  cases hd : decode .cmd v with
  | ok i => exact absurd ((exists_decodeCmd_ok_iff v).mp ⟨i, hd⟩) hv
  | error e => simp [writeCmd, hd, h]

/-- Settles O16: an idle block marks the word with `ILL`, and a busy one turns every word away. -/
theorem illegalCommandWordIsNotExecuted : Obligations.IllegalCommandWordIsNotExecuted := by
  intro s v rest hl hs hv
  exact ⟨fun hb => (step_memWrite hl (by decide) hs).trans (writeCmd_idle_illegal (s := { s with script := rest }) hb hv),
    fun hb => (busyHostWriteIsDiscarded s v 0 rest hl hb hs).1 (.inl rfl)⟩

end Sys2Proof.Machine

/-! SUPPORT. The answers to a pin request (R102, R122): the domains as the rule's table gives them, and the two refusals of
a request's step. -/

namespace Sys2Proof.Machine

/-- Every pin request is a pin exchange of its own, with some rule for its answer (R121, R196). -/
theorem exists_exec_eq_pinCall {i : Instr} (hf : i.format = .pinreq) (s : State) :
    ∃ onAnswer, exec i s = pinCall i s onAnswer := by
  cases i with
  | read | beginTxn | ackchk | sample | validate | waitl | idle => cases hf
  | setLevel | setDirection | readLevel | waitForLevel | delay =>
    simp only [exec, execSetLevel, execSetDirection, execReadLevel, execWaitForLevel, execDelay]
    exact ⟨_, rfl⟩

/-! ## Outside the domain -/

/-- R122: the table of the answer domains, by the kind of answer. -/
theorem inDomain_iff {i : Instr} (hf : i.format = .pinreq) (a : Answer) :
    inDomain i a = true ↔
      ((∃ e, a = .fault e) ∨
       (a = .ok ∧ ((∃ l, i = .setLevel l) ∨ (∃ d, i = .setDirection d) ∨ ∃ t, i = .delay t)) ∨
       ((∃ l, a = .okLevel l) ∧ i = .readLevel) ∨
       ((a = .timeout ∨ ∃ d, a = .okDur d) ∧ ∃ l t, i = .waitForLevel l t)) := by
  cases i with
  | read | beginTxn | ackchk | sample | validate | waitl | idle => cases hf
  | setLevel | setDirection | readLevel | waitForLevel | delay => cases a <;> simp [inDomain]

/-- An answer is refused as outside the domain exactly when it is. -/
theorem pinCall_refused_answerOutsideDomain_iff {s : State} {a : Answer} (ha : s.answered a) (req : Instr)
    (onAnswer : Answer → Decoder → Decoder) :
    pinCall req s onAnswer = .refused .answerOutsideDomain ↔ ¬ inDomain req a = true := by
  constructor
  · intro h
    obtain ⟨_, _, _, _, hr⟩ | ⟨r, b, hb, hd, hout, -⟩ := pinCall_refused_cases h
    · cases hr
    · cases ha.symm.trans hb
      rw [decodeAnswer_encodeAnswer] at hd
      cases hd
      simp [hout]
  · intro hout
    simp [pinCall, ha, hout]

/-! ## Reserved records -/

/-- R102: the kinds 5 to 7 stand for no answer. -/
theorem decodeAnswer_reservedKind {r : AnswerRec} (h : 5 ≤ r.kind.toNat) : decodeAnswer r = .error .reservedKind := by
  have other : ∀ k : BitVec 3, k.toNat < 5 → r.kind ≠ k := fun k hk he => by rw [he] at h; omega
  simp [decodeAnswer, other]

/-- R102: a record that stands for no answer is refused by every request. -/
theorem pinCall_reserved {s : State} {r : AnswerRec} {e : DecodeReject} (h : s.pinAns = some r)
    (hd : decodeAnswer r = .error e) (req : Instr) (onAnswer : Answer → Decoder → Decoder) :
    pinCall req s onAnswer = .refused .reservedAnswer := by
  simp [pinCall, h, hd]

/-- Settles O31: a request's step is its pin exchange, which refuses the answers that R122's table leaves out and the records
that R102 reserves. -/
theorem answerOutsideDomainIsRefused : Obligations.AnswerOutsideDomainIsRefused := by
  intro i s hf
  obtain ⟨onAnswer, hx⟩ := exists_exec_eq_pinCall hf s
  rw [hx]
  refine ⟨fun a ha => ?_, fun r hr hk => pinCall_reserved hr (decodeAnswer_reservedKind hk) i onAnswer⟩
  rw [pinCall_refused_answerOutsideDomain_iff ha, inDomain_iff hf]

end Sys2Proof.Machine

/-! SUPPORT. The bands (R147, R161): each outcome of the two tests as membership in a band. The order of the bands (R9) is
needed for the one band alone, which is tested second. -/

namespace Sys2Proof.Machine

/-- R147: the acknowledgment check is membership in its band. -/
theorem ackOk_iff (cfg : Config) (d : Word) : ackOk cfg d = true ↔ cfg.ackMin ≤ d.toNat ∧ d.toNat ≤ cfg.ackMax := by
  simp [ackOk]

/-- R161: the zero band is tested first. -/
theorem classify_eq_zero_iff (cfg : Config) (d : Word) :
    classify cfg d = some false ↔ cfg.zeroMin ≤ d.toNat ∧ d.toNat ≤ cfg.zeroMax := by
  unfold classify
  split_ifs with hz ho <;> simp [hz]

/-- R161: an unclassified duration failed both tests. -/
theorem classify_eq_none_iff (cfg : Config) (d : Word) :
    classify cfg d = none ↔
      ¬ (cfg.zeroMin ≤ d.toNat ∧ d.toNat ≤ cfg.zeroMax) ∧ ¬ (cfg.oneMin ≤ d.toNat ∧ d.toNat ≤ cfg.oneMax) := by
  unfold classify
  split_ifs with hz ho <;> simp [*]

/-- R9: under a legal configuration the zero band ends below the one band. -/
theorem not_zeroBand_of_oneBand {cfg : Config} (hl : cfg.legal = true) {n : Nat} (ho : cfg.oneMin ≤ n) :
    ¬ (cfg.zeroMin ≤ n ∧ n ≤ cfg.zeroMax) := by
  obtain ⟨-, -, -, zeroBelowOne, -⟩ := (legal_iff_constraints cfg).mp hl
  omega

/-- R161: the one band is tested second, and the first test takes nothing from it. -/
theorem classify_eq_one_iff {cfg : Config} (hl : cfg.legal = true) (d : Word) :
    classify cfg d = some true ↔ cfg.oneMin ≤ d.toNat ∧ d.toNat ≤ cfg.oneMax := by
  unfold classify
  split_ifs with hz ho
  · exact iff_of_false (by simp) fun one => not_zeroBand_of_oneBand hl one.1 hz
  · simp [ho]
  · simp [ho]

/-- Settles O33: the default bands and the fixed points are evaluated, and each outcome is membership in its band. -/
theorem bandsAreInclusiveAndDisjoint : Obligations.BandsAreInclusiveAndDisjoint :=
  ⟨by decide, fun cfg d =>
    ⟨ackOk_iff cfg d, fun hl => ⟨classify_eq_zero_iff cfg d, classify_eq_one_iff hl d, classify_eq_none_iff cfg d⟩⟩⟩

end Sys2Proof.Machine

/-! SUPPORT. The checksum (R181): the accumulator is wide enough for four bytes, so that masking it to the low byte is the
only reduction. -/

namespace Sys2Proof.Machine

/-- R181: the 16-bit accumulator never wraps. -/
theorem toNat_add_setWidth16 (b0 b1 b2 b3 : Byte) :
    (b0.setWidth 16 + b1.setWidth 16 + b2.setWidth 16 + b3.setWidth 16).toNat =
      b0.toNat + b1.toNat + b2.toNat + b3.toNat := by
  have atMost0x3FC : b0.toNat + b1.toNat + b2.toNat + b3.toNat ≤ 0x3FC := by omega
  simp only [BitVec.toNat_add, BitVec.toNat_setWidth]
  omega

/-- Settles O32: the low byte of an accumulator that did not wrap. -/
theorem checksumIsTheSumModulo256 : Obligations.ChecksumIsTheSumModulo256 := by
  intro b0 b1 b2 b3
  rw [checksum, BitVec.extractLsb'_toNat, toNat_add_setWidth16, Nat.shiftRight_zero]

end Sys2Proof.Machine

/-! SUPPORT. What one step can do to the decoder's record, said once (`Decoder.StepsTo`), and from it that sampling is entered
only with a cleared frame (R199). -/

namespace Sys2Proof.Machine

/-! ## The step on the decoder's record -/

/-- All that one step can make of the record `d` under the configuration `cfg`: the effects of the
host's accesses, of reset and of the check step, the acceptances, and the pin steps of the requests with their answers. -/
inductive Decoder.StepsTo (cfg : Config) (d : Decoder) : Decoder → Prop where
  /-- A host read, a discarded write, a request that waits or that has no effect here, or no move left. -/
  | kept : StepsTo cfg d d
  /-- Reset (R240). -/
  | cleared : StepsTo cfg d Decoder.reset
  /-- A write hit the busy lock (R76). -/
  | turnedAway (busy : d.busy = true) : StepsTo cfg d d.markOvr
  /-- An illegal word was written to `CMD` (R96). -/
  | illegalWord (idle : d.busy = false) : StepsTo cfg d d.markIll
  /-- The host loaded `raw` (R75). -/
  | rawLoaded (f : Frame) (idle : d.busy = false) : StepsTo cfg d (d.loadRaw f)
  /-- A command other than `SAMPLE` was accepted (R194). -/
  | accepted {i : Instr} {p : Phase} (idle : d.busy = false) (first : firstPhase i = some p) (other : i ≠ .sample) :
      StepsTo cfg d (d.accept (encode i) p)
  /-- `SAMPLE` was accepted, which runs its prologue (R160, R194). -/
  | sampleAccepted (idle : d.busy = false) : StepsTo cfg d (d.accept (encode .sample) .bitLow).clearRaw
  /-- The check step (R196). -/
  | checked (check : d.phase = .check) : StepsTo cfg d d.validate
  /-- A request was answered `Fault` (R218). -/
  | pinFault (e : Word) : StepsTo cfg d (d.raise (.pinFault e) 0#32)
  /-- `SET_LEVEL` was answered `Ok` (R123). -/
  | levelSet (l : Level) : StepsTo cfg d (whenOwn cfg (.setLevel l) (d.setPlvl l) Decoder.afterOk)
  /-- `SET_DIRECTION` was answered `Ok` (R125). -/
  | directionSet (r : Dir) : StepsTo cfg d (whenOwn cfg (.setDirection r) (d.setPdir r) Decoder.afterOk)
  /-- `DELAY` was answered `Ok` (R127). -/
  | delayed (n : Nat) : StepsTo cfg d (whenOwn cfg (.delay n) d Decoder.afterOk)
  /-- `WAIT_FOR_LEVEL` was answered with a duration (R124). -/
  | levelSeen (l : Level) (n : Nat) (w : Word) :
      StepsTo cfg d (whenOwn cfg (.waitForLevel l n) (d.setDur w) (Decoder.afterOkDur cfg w))
  /-- `WAIT_FOR_LEVEL` was answered `Timeout` (R213, R215). -/
  | timedOut (l : Level) (n : Nat) : StepsTo cfg d (whenOwn cfg (.waitForLevel l n) d (Decoder.afterTimeout cfg))

/-- R76, R194: a command word is turned away, or it is accepted. -/
theorem command_stepsTo {s t : State} {d : Decoder} (hd : s.dec.busy = false → s.dec.StepsTo s.cfg d)
    (h : command s d = .next t) : s.dec.StepsTo s.cfg t.dec := by
  cases hb : s.dec.busy with
  | true => rw [command_busy hb] at h; cases h; exact .turnedAway hb
  | false => rw [command_idle hb] at h; cases h; exact hd hb

/-- R121, R218: a request waits, raises its fault, or takes an answer of its domain. -/
theorem pinCall_stepsTo {s t : State} {req : Instr} {onAnswer : Answer → Decoder → Decoder}
    (ha : ∀ a, inDomain req a = true → (∀ e, a ≠ .fault e) → s.dec.StepsTo s.cfg (onAnswer a s.dec))
    (h : pinCall req s onAnswer = .next t) : s.dec.StepsTo s.cfg t.dec := by
  obtain ⟨-, rfl⟩ | ⟨e, rfl⟩ | ⟨a, hd, hf, rfl⟩ := pinCall_cases h
  · exact .kept
  · exact .pinFault e
  · exact ha a hd hf

theorem execWaitForLevel_stepsTo {l : Level} {n : Nat} {s t : State} (h : execWaitForLevel l n s = .next t) :
    s.dec.StepsTo s.cfg t.dec := by
  refine pinCall_stepsTo (fun a hd hf => ?_) h
  cases a with
  | okDur w => exact .levelSeen l n w
  | timeout => exact .timedOut l n
  | fault e => exact absurd rfl (hf e)
  | ok | okLevel => simp [inDomain] at hd

theorem exec_stepsTo {i : Instr} {s t : State} (h : exec i s = .next t) : s.dec.StepsTo s.cfg t.dec := by
  cases i with
  | read | beginTxn | ackchk | validate | waitl | idle =>
    exact command_stepsTo (fun idle => .accepted idle rfl (by simp)) h
  | sample => exact command_stepsTo .sampleAccepted h
  | setLevel l => rw [exec, execSetLevel] at h; exact pinCall_stepsTo (fun _ _ _ => .levelSet l) h
  | setDirection r => rw [exec, execSetDirection] at h; exact pinCall_stepsTo (fun _ _ _ => .directionSet r) h
  | readLevel => rw [exec, execReadLevel] at h; exact pinCall_stepsTo (fun _ _ _ => .kept) h
  | waitForLevel => exact execWaitForLevel_stepsTo h
  | delay n => rw [exec, execDelay] at h; exact pinCall_stepsTo (fun _ _ _ => .delayed n) h

theorem writeCmd_stepsTo {v : Word} {s t : State} (h : writeCmd v s = .next t) : s.dec.StepsTo s.cfg t.dec := by
  obtain ⟨i, -, hx⟩ | ⟨-, hb, rfl⟩ | ⟨-, hb, rfl⟩ := writeCmd_cases h
  · exact exec_stepsTo hx
  · exact .turnedAway hb
  · exact .illegalWord hb

theorem writeRaw_stepsTo {f : Frame} {s t : State} (h : writeRaw f s = .next t) : s.dec.StepsTo s.cfg t.dec := by
  obtain ⟨hb, rfl⟩ | ⟨hb, rfl⟩ := writeRaw_cases h
  · exact .turnedAway hb
  · exact .rawLoaded f hb

theorem hostMove_stepsTo {a : HostAccess} {s t : State} (h : hostMove a s = .next t) : s.dec.StepsTo s.cfg t.dec := by
  obtain ⟨_, -, -, rfl⟩ | ⟨_, -, hw⟩ | ⟨_, -, hw⟩ | ⟨_, -, hw⟩ | ⟨_, _, -, -, -, -, -, rfl⟩ := hostMove_cases h
  · exact .kept
  · exact writeCmd_stepsTo hw
  · exact writeRaw_stepsTo hw
  · exact writeRaw_stepsTo hw
  · exact .kept

theorem answerMove_stepsTo {r : AnswerRec} {s t : State} (h : answerMove r s = .next t) :
    s.dec.StepsTo s.cfg t.dec := by
  obtain ⟨-, rfl⟩ | ⟨_, _, -, -, hx⟩ := answerMove_cases h
  · exact .kept
  · exact exec_stepsTo (s := { s with pinAns := some r }) hx

theorem internalStep_stepsTo (s : State) : s.dec.StepsTo s.cfg (internalStep s).dec := by
  by_cases hc : s.dec.phase = .check
  · rw [internalStep_check hc]; exact .checked hc
  · rw [internalStep_other hc]; exact .kept

theorem doMove_stepsTo {m : Move} {s t : State} (h : doMove m s = .next t) : s.dec.StepsTo s.cfg t.dec := by
  cases m with
  | host a => exact hostMove_stepsTo h
  | answer r => exact answerMove_stepsTo h
  | internal => cases h; exact internalStep_stepsTo s
  | reset => cases h; exact .cleared

/-- A step does to the decoder's record what `Decoder.StepsTo` lists, and nothing else. -/
theorem step_stepsTo {s t : State} (h : step s = .next t) : s.dec.StepsTo s.cfg t.dec := by
  rw [step_legal (legal_of_step h)] at h
  cases hs : s.script with
  | nil => rw [nextMove_nil hs] at h; cases h; exact internalStep_stepsTo s
  | cons m rest => rw [nextMove_cons hs] at h; exact doMove_stepsTo (s := { s with script := rest }) h

/-! ## What leads into `BIT_LOW` -/

/-- R194: `SAMPLE` is the only command that starts in `BIT_LOW`. -/
theorem eq_sample_of_firstPhase {i : Instr} (h : firstPhase i = some .bitLow) : i = .sample := by
  cases i with
  | sample => rfl
  | _ => simp [firstPhase] at h

/-- R211, R212: the check step ends the command. -/
@[simp] theorem Decoder.validate_phase (d : Decoder) : d.validate.phase = .idle := by
  unfold Decoder.validate
  split <;> rfl

theorem whenOwn_cases (cfg : Config) (req : Instr) (d : Decoder) (goOn : Decoder → Decoder) :
    whenOwn cfg req d goOn = d ∨ whenOwn cfg req d goOn = goOn d := by
  by_cases own : requestOf cfg d = some req
  · exact .inr (whenOwn_own own goOn)
  · exact .inl (whenOwn_other own goOn)

/-- A foreign request moves nothing (log entry 7), so only the rule of an own request can lead into `BIT_LOW`. -/
theorem phase_of_whenOwn_bitLow {cfg : Config} {req : Instr} {d : Decoder} {goOn : Decoder → Decoder}
    (hgo : (goOn d).phase = .bitLow → d.phase = .bitLow) (h : (whenOwn cfg req d goOn).phase = .bitLow) :
    d.phase = .bitLow := by
  obtain foreign | own := whenOwn_cases cfg req d goOn
  · exact foreign ▸ h
  · exact hgo (own ▸ h)

/-- R197: no `Ok` leads into `BIT_LOW`. -/
theorem Decoder.phase_of_afterOk_bitLow {d : Decoder} (h : d.afterOk.phase = .bitLow) : d.phase = .bitLow := by
  cases hp : d.phase with
  | bitLow => rfl
  | _ => simp [Decoder.afterOk, hp] at h

/-- R213, R215: no `Timeout` leads into `BIT_LOW`. -/
theorem Decoder.phase_of_afterTimeout_bitLow {cfg : Config} {d : Decoder} (h : (d.afterTimeout cfg).phase = .bitLow) :
    d.phase = .bitLow := by
  cases hp : d.phase with
  | bitLow => rfl
  | _ => simp [Decoder.afterTimeout, hp] at h

/-- R197: outside sampling, the one duration that leads into `BIT_LOW` is that of `ACK_HIGH`, and it runs the prologue. -/
theorem Decoder.afterOkDur_enters_bitLow {cfg : Config} {w : Word} {d : Decoder}
    (h : (d.afterOkDur cfg w).phase = .bitLow) (low : d.phase ≠ .bitLow) (high : d.phase ≠ .bitHigh) :
    d.afterOkDur cfg w = d.clearRaw.goto .bitLow := by
  cases hp : d.phase with
  | bitLow => exact absurd hp low
  | bitHigh => exact absurd hp high
  | ackStart =>
    simp only [Decoder.afterOkDur, hp, Decoder.afterAckStart] at h
    split_ifs at h <;> cases h
  | ackLow =>
    simp only [Decoder.afterOkDur, hp, Decoder.afterAckLow] at h
    split_ifs at h <;> cases h
  | ackHigh =>
    simp only [Decoder.afterOkDur, hp, Decoder.afterAckHigh] at h ⊢
    split_ifs at h ⊢
    · rfl
    · cases h
    · cases h
  | _ => simp [Decoder.afterOkDur, hp] at h

/-! ## `BIT_LOW` is entered with a cleared frame -/

/-- R199: a step into `BIT_LOW` from outside sampling is the acceptance of `SAMPLE` or the end of `ACK_HIGH`, and both clear the
frame and the index. -/
theorem Decoder.StepsTo.cleared_of_enters_bitLow {cfg : Config} {d d' : Decoder} (h : d.StepsTo cfg d')
    (enters : d'.phase = .bitLow) (low : d.phase ≠ .bitLow) (high : d.phase ≠ .bitHigh) :
    d'.raw = Frame.zero ∧ d'.bitidx = 0#6 := by
  cases h with
  | kept | turnedAway | illegalWord | rawLoaded => exact absurd enters low
  | cleared | pinFault => cases enters
  | checked => rw [Decoder.validate_phase] at enters; cases enters
  | accepted _ first other =>
    rw [Decoder.accept_phase] at enters
    exact absurd (eq_sample_of_firstPhase (enters ▸ first)) other
  | sampleAccepted => exact ⟨rfl, rfl⟩
  | levelSet | directionSet | delayed =>
    exact absurd (phase_of_whenOwn_bitLow Decoder.phase_of_afterOk_bitLow enters) low
  | timedOut => exact absurd (phase_of_whenOwn_bitLow Decoder.phase_of_afterTimeout_bitLow enters) low
  | levelSeen l n w =>
    obtain foreign | own := whenOwn_cases cfg (.waitForLevel l n) (d.setDur w) (Decoder.afterOkDur cfg w)
    · rw [foreign] at enters
      exact absurd enters low
    · rw [own] at enters ⊢
      rw [Decoder.afterOkDur_enters_bitLow enters low high]
      exact ⟨rfl, rfl⟩

/-- Settles O46: by the list of what a step can do, which holds of every state, so the invariant is not used. -/
theorem samplingBeginsWithAClearedFrame : Obligations.SamplingBeginsWithAClearedFrame :=
  fun _ _ _ h => (step_stepsTo h).cleared_of_enters_bitLow

end Sys2Proof.Machine

/-! SUPPORT. The errors (R212 to R217): the state that a raised error leaves, the wait answered `Timeout`, and the two
outcomes of the check step. -/

namespace Sys2Proof.Machine

/-! ## The state after a raised error -/

/-- R212: the command ends with the error's record, raised in the phase `p`, and nothing is outstanding (R104). -/
theorem settle_raise {p : Phase} {d : Decoder} (hp : d.phase = p) (s : State) (e : ProtocolError) (w : Word) :
    s.settle (d.raise e w) = { s with
      dec := { d with
        err := e.kind, ephase := p, edur := w, eidx := e.index p d.bitidx, ecomp := e.computed, erecv := e.received
        pinerr := e.pinCode, phase := .idle, busy := false, done := true, ok := false }
      pinAns := none, pinReq := none } := by
  subst hp
  rfl

/-! ## Waits that end a command with an error -/

/-- R121, R196: the phase's own wait, answered `Timeout`. -/
theorem exec_wait_timeout {s : State} {l : Level} {t : Nat} (hr : requestOf s.cfg s.dec = some (.waitForLevel l t))
    (ha : s.answered .timeout) :
    exec (.waitForLevel l t) s = .next (s.settle (s.dec.afterTimeout s.cfg)) := by
  rw [exec, execWaitForLevel, pinCall_answer ha (decodeAnswer_encodeAnswer _) rfl (by simp)]
  simp only [whenOwn_own hr]

/-- Settles O27: each acknowledgment phase's own wait raises `AckTimeout` with the phase's bound. -/
theorem acknowledgmentTimeoutIsRecorded : Obligations.AcknowledgmentTimeoutIsRecorded := by
  intro s ha failed
  refine ⟨fun hp => ?ackStart, fun hp => ?ackLow, fun hp => ?ackHigh⟩
  all_goals
    rw [exec_wait_timeout (by simp [requestOf, hp]) ha]
    simp only [Decoder.afterTimeout, hp, settle_raise hp]
    rfl

/-- Settles O28: each sampling phase's own wait, and that of `WAITL`, raises `LevelTimeout` with its bound; the index is the
current one in the sampling phases only. -/
theorem levelTimeoutIsRecorded : Obligations.LevelTimeoutIsRecorded := by
  intro s ha failed
  refine ⟨fun hp => ?bitLow, fun hp => ?bitHigh, fun hp => ?waitL⟩
  all_goals
    rw [exec_wait_timeout (by simp [requestOf, hp]) ha]
    simp only [Decoder.afterTimeout, hp, settle_raise hp]
    rfl

/-- Settles O29: a duration outside its band fails the phase's test after `dur` has taken it, and below 40 the index that
`BitOutOfRange` carries is the current one. -/
theorem durationOutOfBandIsRecorded : Obligations.DurationOutOfBandIsRecorded := by
  intro s d ha failed
  refine ⟨fun out => ?ack, fun notZero notOne hp hi => ?bit⟩
  case ack =>
    have rejected : ¬ ackOk s.cfg d = true := mt (ackOk_iff s.cfg d).mp out
    refine ⟨fun hp => ?low, fun hp => ?high⟩
    all_goals
      rw [exec_wait_okDur (by simp [requestOf, hp]) ha]
      simp only [Decoder.afterOkDur, Decoder.afterAckLow, Decoder.afterAckHigh, Decoder.setDur_phase, hp,
        if_neg rejected, settle_raise (d := s.dec.setDur d) hp]
      rfl
  case bit =>
    have unclassified : classify s.cfg d = none := (classify_eq_none_iff s.cfg d).mpr ⟨notZero, notOne⟩
    have index := index_frameIndex (d := s.dec.setDur d) hi .bitHigh
    rw [exec_wait_okDur (by simp [requestOf, hp]) ha]
    simp only [Decoder.afterOkDur, Decoder.afterBitHigh, Decoder.setDur_phase, hp, unclassified,
      settle_raise (d := s.dec.setDur d) hp, index]
    rfl

/-! ## The check step -/

/-- R181: the checksum of a frame, as a number. -/
theorem toNat_frameSum (f : Frame) :
    (frameSum f).toNat = (f[0].toNat + f[1].toNat + f[2].toNat + f[3].toNat) % 256 :=
  checksumIsTheSumModulo256 f[0] f[1] f[2] f[3]

theorem Decoder.validate_passed {d : Decoder} (h : frameSum d.raw = d.raw[4]) : d.validate = d.buildMeas.finishOk :=
  if_pos h

theorem Decoder.validate_failed {d : Decoder} (h : frameSum d.raw ≠ d.raw[4]) :
    d.validate = d.raise (.checksumMismatch (frameSum d.raw) d.raw[4]) 0#32 :=
  if_neg h

/-- R196(3): the internal move in phase `CHECK` is the check step. -/
theorem step_internal_check {s : State} {rest : List Move} (hl : s.cfg.legal = true) (hp : s.dec.phase = .check)
    (hs : s.script = .internal :: rest) : step s = .next ({ s with script := rest }.settle s.dec.validate) := by
  rw [step_legal hl, nextMove_cons hs, doMove, internalStep_check (s := { s with script := rest }) hp]

/-- Settles O34: the sum of the statement is the frame's checksum, so its two cases are the two outcomes of the check. -/
theorem checkStepBuildsTheMeasurementOrFails : Obligations.CheckStepBuildsTheMeasurementOrFails := by
  intro s rest hl hp hs sum
  have hsum : (frameSum s.dec.raw).toNat = sum := toNat_frameSum s.dec.raw
  have passes_iff : frameSum s.dec.raw = s.dec.raw[4] ↔ sum = s.dec.raw[4].toNat := by rw [← hsum, BitVec.toNat_inj]
  rw [step_internal_check hl hp hs]
  refine ⟨fun passed => ?passed, fun failed => ?failed⟩
  case passed =>
    rw [Decoder.validate_passed (passes_iff.mpr passed)]
    rfl
  case failed =>
    rw [Decoder.validate_failed (mt passes_iff.mp failed), settle_raise hp, ← hsum, BitVec.ofNat_toNat,
      BitVec.setWidth_eq]
    rfl

end Sys2Proof.Machine

/-! SUPPORT. What a step can do to the Measurement (R35, R219), from the list of what a step can do (`Decoder.StepsTo`). -/

namespace Sys2Proof.Machine

/-- R35, R219: `d'` holds the Measurement of `d`, with the same validity. -/
def Decoder.SameMeasurement (d d' : Decoder) : Prop := d'.meas = d.meas ∧ d'.mvalid = d.mvalid

theorem Decoder.SameMeasurement.refl (d : Decoder) : d.SameMeasurement d := ⟨rfl, rfl⟩

/-! ## What follows an answer leaves the Measurement -/

theorem Decoder.SameMeasurement.of_whenOwn {cfg : Config} {req : Instr} {d d' : Decoder} {goOn : Decoder → Decoder}
    (hd : d.SameMeasurement d') (hgo : d.SameMeasurement (goOn d')) :
    d.SameMeasurement (whenOwn cfg req d' goOn) := by
  obtain foreign | own := whenOwn_cases cfg req d' goOn
  · rwa [foreign]
  · rwa [own]

theorem Decoder.afterOk_sameMeasurement (d : Decoder) : d.SameMeasurement d.afterOk := by
  unfold Decoder.afterOk
  split <;> exact ⟨rfl, rfl⟩

theorem Decoder.afterTimeout_sameMeasurement (cfg : Config) (d : Decoder) : d.SameMeasurement (d.afterTimeout cfg) := by
  unfold Decoder.afterTimeout
  split <;> exact ⟨rfl, rfl⟩

theorem Decoder.acceptBit_sameMeasurement (c : Bit) (d : Decoder) : d.SameMeasurement (d.acceptBit c) := by
  unfold Decoder.acceptBit
  split_ifs <;> exact ⟨rfl, rfl⟩

theorem Decoder.afterBitHigh_sameMeasurement (cfg : Config) (w : Word) (d : Decoder) :
    d.SameMeasurement (d.afterBitHigh cfg w) := by
  unfold Decoder.afterBitHigh
  split
  · exact ⟨rfl, rfl⟩
  · exact d.acceptBit_sameMeasurement _

theorem Decoder.afterOkDur_sameMeasurement (cfg : Config) (w : Word) (d : Decoder) :
    d.SameMeasurement (d.afterOkDur cfg w) := by
  cases hp : d.phase with
  | bitHigh => simpa only [Decoder.afterOkDur, hp] using d.afterBitHigh_sameMeasurement cfg w
  | ackStart | ackLow | ackHigh =>
    simp only [Decoder.afterOkDur, hp, Decoder.afterAckStart, Decoder.afterAckLow, Decoder.afterAckHigh]
    split_ifs <;> exact ⟨rfl, rfl⟩
  | _ => simp only [Decoder.afterOkDur, hp]; exact ⟨rfl, rfl⟩

/-! ## A step and the Measurement -/

/-- R35, R219: a step clears the record, or it is a passed check that builds the Measurement, or it leaves it. -/
theorem Decoder.StepsTo.measurement_cases {cfg : Config} {d d' : Decoder} (h : d.StepsTo cfg d') :
    d' = Decoder.reset ∨ (d.phase = .check ∧ frameSum d.raw = d.raw[4] ∧ d' = d.buildMeas.finishOk) ∨
      d.SameMeasurement d' := by
  cases h with
  | cleared => exact .inl rfl
  | checked check =>
    by_cases passes : frameSum d.raw = d.raw[4]
    · exact .inr (.inl ⟨check, passes, Decoder.validate_passed passes⟩)
    · rw [Decoder.validate_failed passes]
      exact .inr (.inr ⟨rfl, rfl⟩)
  | levelSet l => exact .inr (.inr (.of_whenOwn ⟨rfl, rfl⟩ (d.setPlvl l).afterOk_sameMeasurement))
  | directionSet r => exact .inr (.inr (.of_whenOwn ⟨rfl, rfl⟩ (d.setPdir r).afterOk_sameMeasurement))
  | delayed => exact .inr (.inr (.of_whenOwn (.refl d) d.afterOk_sameMeasurement))
  | levelSeen _ _ w => exact .inr (.inr (.of_whenOwn ⟨rfl, rfl⟩ ((d.setDur w).afterOkDur_sameMeasurement cfg w)))
  | timedOut => exact .inr (.inr (.of_whenOwn (.refl d) (d.afterTimeout_sameMeasurement cfg)))
  | kept | turnedAway | illegalWord | rawLoaded | accepted | sampleAccepted | pinFault => exact .inr (.inr ⟨rfl, rfl⟩)

/-- Settles O44: reset leaves `done` 0 and a passed check sets `ok`, so a step that ends with an error is neither. This
needs no busy command before the step. -/
theorem noErrorWritesTheMeasurement : Obligations.NoErrorWritesTheMeasurement := by
  intro s t h _ ended failed
  obtain cleared | ⟨-, -, passed⟩ | same := (step_stepsTo h).measurement_cases
  · rw [cleared] at ended
    cases ended
  · rw [passed] at failed
    cases failed
  · exact same

end Sys2Proof.Machine

/-! SUPPORT. The words both ways (R91 to R102): a well-formed instruction is read back from its word, a word that is read is
the word of its instruction, and the same for the answer records. -/

namespace Sys2Proof

/-! ## Reading back a word -/

/-- R93, R98: a command whose time fits is read back from its word. -/
theorem decode_encode_command {i : Instr} (hf : i.format = .cmd) (hw : i.wf = true) :
    decode .cmd (encode i) = .ok i := by
  cases i with
  | read | beginTxn | ackchk | sample | validate | idle => decide
  | waitl => simp [decode, encode, decodeCmd, toNat_time (of_decide_eq_true hw)]
  | setLevel | setDirection | readLevel | waitForLevel | delay => cases hf

/-- Settles O2: by the format of the instruction. -/
theorem decodeOfEncodeIsTheInstruction : Obligations.DecodeOfEncodeIsTheInstruction := by
  intro i hw
  cases hf : i.format with
  | cmd => exact decode_encode_command hf hw
  | pinreq => exact Machine.decode_encode_request hf hw

/-! ## The word of the instruction read -/

/-- A slice inside a slice that is 0 is 0. -/
theorem slice_zero_of_slice_zero {p n q m : Nat} {v : Word} (h : v.extractLsb' p n = 0#n) (hq : p ≤ q)
    (hm : q + m ≤ p + n) : v.extractLsb' q m = 0#m := by
  apply BitVec.eq_of_getLsbD_eq
  intro i hi
  have bit := getLsbD_slice p v (q - p + i) (by omega : q - p + i < n)
  rw [h, show p + (q - p + i) = q + i by omega] at bit
  rw [getLsbD_slice q v i hi, ← bit]
  simp

/-- R93: a word whose bits [31:4] are 0 is its `OP` alone. -/
theorem cmdWord_cmdOp_of_bare {v : Word} (h : v.extractLsb' 4 28 = 0#28) : cmdWord 0#24 .low (cmdOp v) = v := by
  have rsv : cmdRsv v = 0#3 := slice_zero_of_slice_zero h (by decide) (by decide)
  have maxw : cmdMaxw v = 0#24 := slice_zero_of_slice_zero h (by decide) (by decide)
  have bit4 := getLsbD_slice 4 v 0 (by decide : 0 < 28)
  have lvl : cmdLvl v = .low := by
    rw [cmdLvl, ← bit4, h]
    rfl
  rw [← maxw, ← lvl, cmdWord_fields v rsv]

/-- What is said of the instruction `i` read from the word `v` on the port of format `f`. -/
def ReadsAs (f : Format) (v : Word) (i : Instr) : Prop := encode i = v ∧ i.format = f ∧ i.wf = true

/-- R93: a command without operands that is read has no bit set but those of its `OP`. -/
theorem readsAs_of_bareCommand {v : Word} {i j : Instr} (hw : encode i = cmdWord 0#24 .low (cmdOp v))
    (hi : i.format = .cmd ∧ i.wf = true) (h : bareCommand v i = .ok j) : ReadsAs .cmd v j := by
  obtain rfl := Machine.bareCommand_ok h
  have bare := (exists_bareCommand_ok_iff v j).mp ⟨j, h⟩
  exact ⟨hw.trans (cmdWord_cmdOp_of_bare bare), hi⟩

theorem fitsTime_toNat (t : BitVec 24) : fitsTime t.toNat := Nat.le_pred_of_lt t.isLt

theorem readsAs_of_decodeCmd {v : Word} {i : Instr} (h : decodeCmd v = .ok i) : ReadsAs .cmd v i := by
  unfold decodeCmd at h
  split_ifs at h with h1 h2 h3 h4 h5 h6 rsv h7
  case pos | pos | pos | pos | pos => exact readsAs_of_bareCommand (by simp [encode, *]) ⟨rfl, rfl⟩ h
  -- `WAITL`
  case pos =>
    cases h
    refine ⟨?_, rfl, decide_eq_true (fitsTime_toNat _)⟩
    rw [encode, BitVec.ofNat_toNat, BitVec.setWidth_eq, ← h6, cmdWord_fields v rsv]
  -- `IDLE`
  case pos => exact readsAs_of_bareCommand (by simp [encode, *]) ⟨rfl, rfl⟩ h

theorem readsAs_of_decodePin {v : Word} {i : Instr} (h : decodePin v = .ok i) : ReadsAs .pinreq v i := by
  unfold decodePin at h
  split_ifs at h with zero p0 t0 p1 t1 p2 ta p3 p4 a4
  all_goals cases h
  all_goals
    rw [Decidable.not_not] at zero
    refine ⟨?_, rfl, by simp only [Instr.wf, fitsTime_toNat, decide_true]⟩
    rw [← pinWord_fields v zero]
    simp [encode, *]

/-- Settles O3: by the port; each decoder reads only words that are built from the fields it has read. -/
theorem encodeOfDecodeIsTheWord : Obligations.EncodeOfDecodeIsTheWord := by
  intro f v i h
  cases f with
  | cmd => exact readsAs_of_decodeCmd h
  | pinreq => exact readsAs_of_decodePin h

/-! ## The words as numbers -/

/-- R91, R99: three fields, of which the lower two lie below 256, as a number. -/
theorem toNat_word_fields {n p : Nat} (time : BitVec 24) (mid : BitVec n) (low : BitVec p) (h : n + p ≤ 8) :
    (field 8 time ||| field p mid ||| field 0 low).toNat = time.toNat * 256 + (mid.toNat * 2 ^ p + low.toNat) := by
  have lower : mid.toNat <<< p + low.toNat < 2 ^ 8 := by
    have both := (mid ++ low).isLt
    rw [BitVec.toNat_append, ← Nat.shiftLeft_add_eq_or_of_lt low.isLt] at both
    exact Nat.lt_of_lt_of_le both (Nat.pow_le_pow_right (by decide) h)
  rw [BitVec.or_assoc, BitVec.toNat_or, BitVec.toNat_or, toNat_field _ (by decide), toNat_field _ (by omega),
    toNat_field _ (by omega), Nat.shiftLeft_zero, ← Nat.shiftLeft_add_eq_or_of_lt low.isLt,
    ← Nat.shiftLeft_add_eq_or_of_lt lower, Nat.shiftLeft_eq, Nat.shiftLeft_eq]

/-- Settles O5: the words are built from three fields, and the time fits its own. -/
theorem timedRequestWordsAreTimeLevelOperation : Obligations.TimedRequestWordsAreTimeLevelOperation := by
  intro t ht
  simp only [encode, pinWord, cmdWord, toNat_time ht, toNat_word_fields _ _ _ (by decide : 1 + 3 ≤ 8),
    toNat_word_fields _ _ _ (by decide : 1 + 4 ≤ 8)]
  exact ⟨rfl, rfl, rfl, rfl, rfl⟩

/-! ## Answer records -/

/-- A word with no bit set above bit 0 is the field of that bit. -/
theorem field_bit_of_above_zero {v : Word} (h : v.extractLsb' 1 31 = 0#31) :
    field 0 (BitVec.ofBool v[0]) = v := by
  apply BitVec.eq_of_getLsbD_eq
  intro i hi
  cases i with
  | zero => exact getLsbD_field_flag _ (by decide)
  | succ i =>
    have above := getLsbD_slice 1 v i (by omega : i < 31)
    rw [getLsbD_field_beside _ (by omega), Nat.add_comm, ← above, h, BitVec.getLsbD_zero]

/-- R102: a record that is read is the answer's own. -/
theorem encodeAnswer_of_decodeAnswer {r : AnswerRec} {a : Answer} (h : decodeAnswer r = .ok a) : encodeAnswer a = r := by
  obtain ⟨kind, data⟩ := r
  unfold decodeAnswer at h
  split_ifs at h with k0 d0 k1 d1 k2 k3 d3 k4
  all_goals cases h
  all_goals
    dsimp only at *
    simp [encodeAnswer, field_bit_of_above_zero, *]

/-- Settles O6: the records by the table, and the two readings back of the port. -/
theorem answerRecordsAreUnambiguous : Obligations.AnswerRecordsAreUnambiguous :=
  ⟨⟨rfl, rfl, rfl, fun _ => rfl, rfl, fun _ => rfl⟩, Machine.decodeAnswer_encodeAnswer,
    fun _ _ h => encodeAnswer_of_decodeAnswer h, fun _ h => Machine.decodeAnswer_reservedKind h⟩

/-- Settles O1: eleven fixed words, evaluated. -/
theorem decodesTheWordsOfTheSpec : Obligations.DecodesTheWordsOfTheSpec := by
  unfold Obligations.DecodesTheWordsOfTheSpec
  decide

end Sys2Proof

namespace Sys2Proof.Machine

/-! ## Registers -/

/-- R43: the fields of `ERRINFO` and the bits between and above them. -/
theorem errinfoWord_slices (d : Decoder) :
    (errinfoWord d).extractLsb' 0 6 = d.eidx ∧ (errinfoWord d).extractLsb' 6 2 = 0#2 ∧
    (errinfoWord d).extractLsb' 8 8 = d.ecomp ∧ (errinfoWord d).extractLsb' 16 8 = d.erecv ∧
    (errinfoWord d).extractLsb' 24 4 = d.ephase.code ∧ (errinfoWord d).extractLsb' 28 4 = 0#4 := by
  simp [errinfoWord, BitVec.extractLsb'_or]

/-- R47, R79: the byte lanes of a word of four bytes. -/
theorem laneWord_slices (b0 b1 b2 b3 : Byte) :
    (laneWord b0 b1 b2 b3).extractLsb' 0 8 = b0 ∧ (laneWord b0 b1 b2 b3).extractLsb' 8 8 = b1 ∧
    (laneWord b0 b1 b2 b3).extractLsb' 16 8 = b2 ∧ (laneWord b0 b1 b2 b3).extractLsb' 24 8 = b3 := by
  simp [laneWord, BitVec.extractLsb'_or]

/-- Settles O12: no two fields of `ERRINFO` and no two lanes overlap; the other registers are whole words. -/
theorem dataRegistersShowTheirFields : Obligations.DataRegistersShowTheirFields := by
  intro cfg d
  obtain ⟨r0, r1, r2, r3⟩ := laneWord_slices d.raw[0] d.raw[1] d.raw[2] d.raw[3]
  refine ⟨errinfoWord_slices d, rfl, rfl, rfl, fun k => ?raw0, ?raw1, laneWord_slices _ _ _ _, rfl, rfl⟩
  case raw0 =>
    match k with
    | 0 => exact r0
    | 1 => exact r1
    | 2 => exact r2
    | 3 => exact r3
  case raw1 => exact ⟨slice_field_same _ (by decide), slice_field_beside _ (by decide)⟩

/-- Settles O7: four fixed lines are parsed by evaluation, and an access is the statement's own. -/
theorem hostLinesStandForTheirAccesses : Obligations.HostLinesStandForTheirAccesses := by
  unfold Obligations.HostLinesStandForTheirAccesses
  refine ⟨by decide, by decide, by decide, by decide, rfl, rfl, fun _ => rfl⟩

end Sys2Proof.Machine

/-! SUPPORT. The step of a request that is answered (R121 to R128), said once for the five requests: the request's own effect,
and the command's next step where the request is the phase's own. -/

namespace Sys2Proof.Machine

/-! ## An answered request -/

/-- R123 to R125: what an answer writes beside the command: the level, the direction or the duration. -/
def Decoder.ownEffect (req : Instr) (a : Answer) (d : Decoder) : Decoder :=
  match req, a with
  | .setLevel l, .ok => d.setPlvl l
  | .setDirection r, .ok => d.setPdir r
  | .waitForLevel _ _, .okDur w => d.setDur w
  | _, _ => d

/-- R197, R213, R215, R218: how the command goes on after an answer to its own request. -/
def Decoder.goOn (cfg : Config) (a : Answer) (d : Decoder) : Decoder :=
  match a with
  | .ok => d.afterOk
  | .okLevel _ => d
  | .okDur w => d.afterOkDur cfg w
  | .timeout => d.afterTimeout cfg
  | .fault e => d.raise (.pinFault e) 0#32

/-- The decoder's record after the answer `a` to the request `req`. -/
def Decoder.answeredBy (cfg : Config) (req : Instr) (a : Answer) (d : Decoder) : Decoder :=
  match a with
  | .fault e => d.raise (.pinFault e) 0#32
  | a => whenOwn cfg req (d.ownEffect req a) (Decoder.goOn cfg a)

/-- R121, R196: a request with an answer of its domain settles the record that `Decoder.answeredBy` gives. -/
theorem exec_answered {s : State} {i : Instr} {a : Answer} (hf : i.format = .pinreq) (ha : s.answered a)
    (hd : inDomain i a = true) : exec i s = .next (s.settle (s.dec.answeredBy s.cfg i a)) := by
  have hr := decodeAnswer_encodeAnswer a
  cases i with
  | read | beginTxn | ackchk | sample | validate | waitl | idle => cases hf
  | setLevel | setDirection | delay =>
    simp only [exec, execSetLevel, execSetDirection, execDelay]
    cases a with
    | ok => exact pinCall_answer ha hr hd (by simp) _
    | fault e => exact pinCall_fault ha hr hd _
    | _ => cases hd
  | readLevel =>
    simp only [exec, execReadLevel]
    cases a with
    | okLevel l =>
      obtain h | h := whenOwn_cases s.cfg .readLevel s.dec (Decoder.goOn s.cfg (.okLevel l))
      all_goals exact (pinCall_answer ha hr hd (by simp) _).trans (congrArg _ (congrArg _ h.symm))
    | fault e => exact pinCall_fault ha hr hd _
    | _ => cases hd
  | waitForLevel =>
    simp only [exec, execWaitForLevel]
    cases a with
    | okDur | timeout => exact pinCall_answer ha hr hd (by simp) _
    | fault e => exact pinCall_fault ha hr hd _
    | _ => cases hd

theorem requestOf_ownEffect (cfg : Config) (req : Instr) (a : Answer) (d : Decoder) :
    requestOf cfg (d.ownEffect req a) = requestOf cfg d := by
  unfold Decoder.ownEffect
  split <;> rfl

/-- The phase's own request goes on with the command. -/
theorem Decoder.answeredBy_own {cfg : Config} {req : Instr} {d : Decoder} (h : requestOf cfg d = some req) (a : Answer) :
    d.answeredBy cfg req a = (d.ownEffect req a).goOn cfg a := by
  have own : requestOf cfg (d.ownEffect req a) = some req := by rw [requestOf_ownEffect, h]
  cases a with
  | fault e => cases req <;> rfl
  | _ => exact whenOwn_own own _

/-- A request that is not the phase's own has its own effect only (log entry 7). -/
theorem Decoder.answeredBy_foreign {cfg : Config} {req : Instr} {d : Decoder} (h : requestOf cfg d ≠ some req)
    {a : Answer} (hf : ∀ e, a ≠ .fault e) : d.answeredBy cfg req a = d.ownEffect req a := by
  have other : requestOf cfg (d.ownEffect req a) ≠ some req := by rwa [requestOf_ownEffect]
  cases a with
  | fault e => exact absurd rfl (hf e)
  | _ => exact whenOwn_other other _

/-- The step of the phase's own request. -/
theorem exec_own {s : State} {i : Instr} {a : Answer} (hr : requestOf s.cfg s.dec = some i) (hf : i.format = .pinreq)
    (ha : s.answered a) (hd : inDomain i a = true) :
    exec i s = .next (s.settle ((s.dec.ownEffect i a).goOn s.cfg a)) := by
  rw [exec_answered hf ha hd, Decoder.answeredBy_own hr]

/-! ## `Ok`, in the phases of the five requests that it answers -/

/-- Settles O21: `SET_LEVEL` is the own request of its three phases. -/
theorem setLevelAnsweredOk : Obligations.SetLevelAnsweredOk := by
  intro s ha
  refine ⟨fun hp => ?bLow, fun hp => ?bHigh, fun hp => ?idleLvl⟩
  all_goals
    rw [exec_own (by simp [requestOf, hp]) rfl ha rfl]
    simp only [Decoder.ownEffect, Decoder.goOn, Decoder.afterOk, Decoder.setPlvl_phase, hp]
    rfl

/-- Settles O22: `SET_DIRECTION` is the own request of its three phases. -/
theorem setDirectionAnsweredOk : Obligations.SetDirectionAnsweredOk := by
  intro s ha
  refine ⟨fun hp => ?bDirOut, fun hp => ?bDirIn, fun hp => ?idleDir⟩
  all_goals
    rw [exec_own (by simp [requestOf, hp]) rfl ha rfl]
    simp only [Decoder.ownEffect, Decoder.goOn, Decoder.afterOk, Decoder.setPdir_phase, hp]
    rfl

/-- Settles O23: the hold's `DELAY` is the own request of `B_HOLD`. -/
theorem delayAnsweredOk : Obligations.DelayAnsweredOk := by
  intro s ha hp
  rw [exec_own (by simp [requestOf, hp]) rfl ha rfl]
  simp only [Decoder.ownEffect, Decoder.goOn, Decoder.afterOk, hp]
  rfl

/-! ## A request that is not the phase's own -/

/-- R100, R104: `READ_LEVEL` is no phase's own request. -/
theorem requestOf_ne_readLevel (cfg : Config) (d : Decoder) : requestOf cfg d ≠ some .readLevel := by
  unfold requestOf
  split <;> simp

/-- Settles O24: each foreign request by its own effect; `READ_LEVEL` is no phase's own request. -/
theorem foreignRequestHasItsOwnEffectOnly : Obligations.ForeignRequestHasItsOwnEffectOnly := by
  intro s
  have foreign : ∀ (i : Instr) (a : Answer), i.format = .pinreq → s.answered a → inDomain i a = true →
      (∀ e, a ≠ .fault e) → requestOf s.cfg s.dec ≠ some i →
      exec i s = .next (s.settle (s.dec.ownEffect i a)) := fun i a hf ha hd hn hr => by
    rw [exec_answered hf ha hd, Decoder.answeredBy_foreign hr hn]
  exact ⟨fun _ ha hr => foreign _ _ rfl ha rfl (by simp) hr, fun _ ha hr => foreign _ _ rfl ha rfl (by simp) hr,
    fun _ ha hr => foreign _ _ rfl ha rfl (by simp) hr, fun _ _ _ ha hr => foreign _ _ rfl ha rfl (by simp) hr,
    fun _ ha => foreign _ _ rfl ha rfl (by simp) (requestOf_ne_readLevel s.cfg s.dec)⟩

/-! ## `OkDur`, in the phases of the waits -/

theorem Decoder.afterAckStart_read {d : Decoder} (h : d.op = opRead) : d.afterAckStart = d.goto .ackLow := if_pos h

theorem Decoder.afterAckStart_other {d : Decoder} (h : d.op ≠ opRead) : d.afterAckStart = d.finishOk := if_neg h

theorem Decoder.afterAckLow_inBand {cfg : Config} {w : Word} (h : ackOk cfg w = true) (d : Decoder) :
    d.afterAckLow cfg w = d.goto .ackHigh := if_pos h

theorem Decoder.afterAckHigh_read {cfg : Config} {w : Word} {d : Decoder} (hw : ackOk cfg w = true)
    (h : d.op = opRead) : d.afterAckHigh cfg w = d.clearRaw.goto .bitLow := by
  rw [Decoder.afterAckHigh, if_pos hw, if_pos h]

theorem Decoder.afterAckHigh_other {cfg : Config} {w : Word} {d : Decoder} (hw : ackOk cfg w = true)
    (h : d.op ≠ opRead) : d.afterAckHigh cfg w = d.finishOk := by
  rw [Decoder.afterAckHigh, if_pos hw, if_neg h]

/-- Settles O25: each wait is the own request of its phase, and the acknowledgment check passes in its band. -/
theorem handshakeWaitAnsweredInBand : Obligations.HandshakeWaitAnsweredInBand := by
  intro s d ha
  have inBand : s.cfg.ackMin ≤ d.toNat → d.toNat ≤ s.cfg.ackMax → ackOk s.cfg d = true := fun h1 h2 =>
    (ackOk_iff s.cfg d).mpr ⟨h1, h2⟩
  have notRead : ∀ op : BitVec 4, op ≠ opRead → s.dec.op = op → (s.dec.setDur d).op ≠ opRead := fun _ hne hop => by
    rwa [← hop] at hne
  refine ⟨fun hp hop => ?begin, fun hp hop => ?readAckStart, fun hp h1 h2 => ?ackLow, fun hp h1 h2 hop => ?ackchk,
    fun hp h1 h2 hop => ?readAckHigh, fun hp => ?waitl⟩
  all_goals
    rw [exec_wait_okDur (by simp [requestOf, hp]) ha]
    simp only [Decoder.afterOkDur, Decoder.setDur_phase, hp]
  case begin => rw [Decoder.afterAckStart_other (notRead _ (by decide) hop)]; rfl
  case readAckStart => rw [Decoder.afterAckStart_read (d := s.dec.setDur d) hop]; rfl
  case ackLow => rw [Decoder.afterAckLow_inBand (inBand h1 h2)]; rfl
  case ackchk => rw [Decoder.afterAckHigh_other (inBand h1 h2) (notRead _ (by decide) hop)]; rfl
  case readAckHigh => rw [Decoder.afterAckHigh_read (d := s.dec.setDur d) (inBand h1 h2) hop]; rfl
  case waitl => rfl

theorem Decoder.acceptBit_next {d : Decoder} (h : d.bitidx.toNat < 39) (c : Bit) :
    d.acceptBit c = (d.shiftRaw c (d.bitidx + 1#6)).goto .bitLow := if_pos h

theorem Decoder.acceptBit_last_read {d : Decoder} (h : ¬ d.bitidx.toNat < 39) (hop : d.op = opRead) (c : Bit) :
    d.acceptBit c = (d.shiftRaw c 40#6).goto .check := by
  rw [Decoder.acceptBit, if_neg h, if_pos hop]

theorem Decoder.acceptBit_last_other {d : Decoder} (h : ¬ d.bitidx.toNat < 39) (hop : d.op ≠ opRead) (c : Bit) :
    d.acceptBit c = (d.shiftRaw c 40#6).finishOk := by
  rw [Decoder.acceptBit, if_neg h, if_neg hop]

/-- R162: a bit shifted into a byte, as a number. -/
theorem shiftByte_eq_ofNat (b : Byte) (c : Bit) : shiftByte b c = BitVec.ofNat 8 (2 * b.toNat + c.toNat) := by
  have wide : shiftByte b c = (b.concat c).setWidth 8 := by
    apply BitVec.eq_of_getLsbD_eq
    intro i hi
    cases i with
    | zero => simp [shiftByte]
    | succ i => simp [shiftByte, hi, BitVec.getLsbD_eq_getElem (by omega : i < 8)]
  rw [wide, ← BitVec.ofNat_toNat, BitVec.toNat_concat, Nat.mul_comm]

/-- R162: a bit shifted into the frame goes to the byte of its index. -/
theorem shiftIn_eq_set (f : Frame) {i : Nat} {k : Fin 5} (h : i / 8 = k.val) (c : Bit) :
    shiftIn f i c = f.set k.val (BitVec.ofNat 8 (2 * f[k.val].toNat + c.toNat)) := by
  rw [shiftIn, h, frame_getD f k.isLt, shiftByte_eq_ofNat]
  ext j hj : 1
  rw [Vector.getElem_setIfInBounds, Vector.getElem_set]

/-- Settles O26: the low phase of a bit is not checked, and a classified high phase is shifted in. -/
theorem samplingWaitAnsweredInBand : Obligations.SamplingWaitAnsweredInBand := by
  intro s d ha
  constructor
  · intro hp
    rw [exec_wait_okDur (by simp [requestOf, hp]) ha]
    simp only [Decoder.afterOkDur, Decoder.setDur_phase, hp]
    rfl
  · intro k c hp hk hc raw'
    have shifted : ∀ n, (s.dec.setDur d).shiftRaw c n = { s.dec with dur := d, raw := raw', bitidx := n } := fun n => by
      rw [Decoder.shiftRaw, Decoder.setDur_raw, Decoder.setDur_bitidx, shiftIn_eq_set s.dec.raw hk c]
      rfl
    rw [exec_wait_okDur (by simp [requestOf, hp]) ha]
    simp only [Decoder.afterOkDur, Decoder.setDur_phase, hp, Decoder.afterBitHigh, hc]
    refine ⟨fun hi => ?more, fun hi hop => ?sample, fun hi hop => ?read⟩
    case more => rw [Decoder.acceptBit_next (d := s.dec.setDur d) hi, shifted]; rfl
    case sample =>
      have notRead : s.dec.op ≠ opRead := by rw [hop]; decide
      rw [Decoder.acceptBit_last_other (d := s.dec.setDur d) hi.not_lt notRead, shifted]
      rfl
    case read => rw [Decoder.acceptBit_last_read (d := s.dec.setDur d) hi.not_lt hop, shifted]; rfl

/-! ## Faults -/

/-- Settles O30: a `Fault` is in every request's domain, and the check step raises no error but `ChecksumMismatch`. -/
theorem pinFaultIsRecorded : Obligations.PinFaultIsRecorded := by
  constructor
  · intro i s e hf ha
    rw [exec_answered hf ha ((inDomain_iff hf _).mpr (.inl ⟨e, rfl⟩)), Decoder.answeredBy, settle_raise rfl]
    rfl
  · intro s h
    by_cases hp : s.dec.phase = .check
    · rw [internalStep_check hp, State.settle_dec] at h
      by_cases passes : frameSum s.dec.raw = s.dec.raw[4]
      · rw [Decoder.validate_passed passes] at h; cases h
      · rw [Decoder.validate_failed passes] at h; cases h
    · rwa [internalStep_other hp] at h

/-! ## Requests without an answer, and a block with no move left -/

/-- R121, R132: a request without an answer takes no step. -/
theorem exec_request_waits {i : Instr} {s : State} (hf : i.format = .pinreq) (hn : s.pinAns = none) :
    exec i s = .next s := by
  obtain ⟨onAnswer, hx⟩ := exists_exec_eq_pinCall hf s
  rw [hx, pinCall_waits hn]

/-- R196, log entry 3: with no move left the step is the internal move's. -/
theorem step_nil {s : State} (hl : s.cfg.legal = true) (hs : s.script = []) : step s = .next (internalStep s) := by
  rw [step_legal hl, nextMove_nil hs]

/-- Settles O36: with no move left, the check step is the one of the internal move (O34). -/
theorem unansweredRequestWaits : Obligations.UnansweredRequestWaits := by
  refine ⟨fun i s hf hn => ?request, fun s hl hs hp => ?waits, fun s hl hs hp => ?check⟩
  case request => exact exec_request_waits hf hn
  case waits => rw [step_nil hl hs, internalStep_other hp]
  case check =>
    obtain ⟨dec, cfg, pinReq, pinAns, rdata, script⟩ := s
    cases hs
    let moved : State := ⟨dec, cfg, pinReq, pinAns, rdata, [.internal]⟩
    have same : step ⟨dec, cfg, pinReq, pinAns, rdata, []⟩ = step moved :=
      ((step_nil hl rfl).trans (congrArg _ (internalStep_check hp))).trans (step_internal_check (s := moved) hl hp rfl).symm
    rw [same]
    exact checkStepBuildsTheMeasurementOrFails moved [] hl hp rfl

end Sys2Proof.Machine

/-! SUPPORT. Moves and acceptance: the fetches (R121, R194), the accesses that do not exist (R72, R73), the seven commands in
an idle and in a busy block (R76, R194), reset (R54, R240), and the idle block (R77). -/

namespace Sys2Proof.Machine

/-! ## Fetches and refusals -/

/-- R121: an answer to an outstanding word that is a request runs the request with the answer on the port. -/
theorem step_answer {s : State} {r : AnswerRec} {w : Word} {i : Instr} {rest : List Move} (hl : s.cfg.legal = true)
    (hs : s.script = .answer r :: rest) (hq : s.pinReq = some w) (hd : decode .pinreq w = .ok i) :
    step s = exec i { s with script := rest, pinAns := some r } := by
  rw [step_legal hl, nextMove_cons hs, doMove, answerMove]
  simp only [hq, hd]

/-- Settles O8: the two fetches. -/
theorem stepRunsTheDecodedInstruction : Obligations.StepRunsTheDecodedInstruction :=
  ⟨fun _ _ _ _ hl hs hd => step_command hl hd hs, fun _ _ _ _ _ hl hs hq hd => step_answer hl hs hq hd⟩

theorem hostMove_width {a : HostAccess} {idx width : Nat} {v : Word}
    (ha : a = .memRead idx width ∨ a = .memWrite idx width v) (hw : width ≠ 4) (s : State) :
    hostMove a s = .refused (.accessWidth width) := by
  obtain rfl | rfl := ha <;> simp [hostMove, hw]

theorem hostMove_index {a : HostAccess} {idx : Nat} {v : Word} (ha : a = .memRead idx 4 ∨ a = .memWrite idx 4 v)
    (hi : 16 ≤ idx) (s : State) : hostMove a s = .refused (.accessIndex idx) := by
  obtain rfl | rfl := ha <;> simp [hostMove, hi]

/-- Settles O17: the width is looked at first (log entry 9), and then the index. -/
theorem accessesThatDoNotExistAreRefused : Obligations.AccessesThatDoNotExistAreRefused := by
  intro s idx width v rest hl hs
  obtain ⟨a, ha, hs⟩ : ∃ a, (a = .memRead idx width ∨ a = .memWrite idx width v) ∧ s.script = .host a :: rest := by
    obtain hs | hs := hs
    · exact ⟨_, .inl rfl, hs⟩
    · exact ⟨_, .inr rfl, hs⟩
  rw [step_host hl hs]
  refine ⟨fun hw => hostMove_width ha hw _, fun hw hi => ?_⟩
  subst hw
  exact hostMove_index ha hi _

/-! ## The seven commands -/

/-- Settles O18: the three acceptances without an operand that begin with a direction request. -/
theorem readBeginIdleAreAccepted : Obligations.ReadBeginIdleAreAccepted :=
  fun _ hb => ⟨command_idle hb _, command_idle hb _, command_idle hb _⟩

/-- R91, R194: what the acceptance of `WAITL` latches. -/
theorem Decoder.accept_waitl (l : Level) (t : Nat) (d : Decoder) :
    d.accept (encode (.waitl l t)) .waitL = { d with
      op := 0x6#4, wlvl := l, wmax := BitVec.ofNat 24 t, busy := true, done := false, ok := false, err := .none
      eidx := 0#6, ecomp := 0#8, erecv := 0#8, ephase := .idle, edur := 0#32, pinerr := 0#32
      bitidx := 0#6, phase := .waitL } := by
  simp only [Decoder.accept, encode, cmdOp_cmdWord, cmdLvl_cmdWord, cmdMaxw_cmdWord]

/-- Settles O19: the acceptances that begin with a wait or with the check; a time that fits is the bound of `WAITL`. -/
theorem ackchkSampleValidateWaitlAreAccepted : Obligations.AckchkSampleValidateWaitlAreAccepted := by
  refine fun s hb => ⟨command_idle hb _, command_idle hb _, command_idle hb _, fun l t ht => ?waitl⟩
  case waitl =>
    rw [exec, execWaitl, command_idle hb, Decoder.accept_waitl]
    simp only [State.settle, requestOf, toNat_time ht, Option.map_some]

/-- Settles O20: the busy lock comes before any acceptance. -/
theorem commandWhileBusyIsTurnedAway : Obligations.CommandWhileBusyIsTurnedAway :=
  fun _ _ hf hb => exec_command_busy hf hb

/-! ## Reset and the idle block -/

/-- R240: the reset move. -/
theorem step_reset {s : State} {rest : List Move} (hl : s.cfg.legal = true) (hs : s.script = .reset :: rest) :
    step s = .next (resetBlock { s with script := rest }) := by
  rw [step_legal hl, nextMove_cons hs, doMove]

/-- R240, log entry 10: an answer with nothing outstanding is dropped. -/
theorem step_answer_dropped {s : State} {r : AnswerRec} {rest : List Move} (hl : s.cfg.legal = true)
    (hs : s.script = .answer r :: rest) (hq : s.pinReq = none) : step s = .next { s with script := rest } := by
  rw [step_legal hl, nextMove_cons hs, doMove, answerMove]
  simp only [hq]

/-- Settles O35: reset, and then the dropped answer to the abandoned request. -/
theorem resetClearsTheBlock : Obligations.ResetClearsTheBlock := by
  refine ⟨rfl, fun s rest hl hs => step_reset hl hs, fun s r rest hl hs => ?late⟩
  case late =>
    rw [runs_of_step (step_reset hl hs) 1]
    exact runs_of_step (step_answer_dropped (s := resetBlock { s with script := .answer r :: rest }) hl rfl rfl) 0

/-- R54, R55: the cleared record meets the invariants. -/
theorem reset_consistent : Decoder.reset.Consistent := by
  constructor <;> decide

/-- R54: the cleared record is in no sampling phase. -/
theorem reset_samplingFrame : Decoder.reset.SamplingFrame := fun sampling => by
  obtain h | h := sampling <;> cases h

/-- Settles O38: the default configuration is legal, and the record is the cleared one with nothing outstanding. -/
theorem resetStateIsConsistent : Obligations.ResetStateIsConsistent :=
  ⟨⟨by decide, reset_consistent, rfl, rfl⟩, reset_samplingFrame⟩

/-- Settles O37: phase `IDLE` has no request outstanding and is not `CHECK`. -/
theorem idleBlockTakesNoDecoderStep : Obligations.IdleBlockTakesNoDecoderStep := by
  intro s m rest inv hp hs hm
  obtain rfl | ⟨r, rfl⟩ := hm
  · have other : s.dec.phase ≠ .check := by rw [hp]; decide
    rw [step_legal inv.cfg_legal, nextMove_cons hs, doMove, internalStep_other (s := { s with script := rest }) other]
  · have nothing : s.pinReq = none := by rw [inv.own_request, requestOf, hp]; rfl
    exact step_answer_dropped inv.cfg_legal hs nothing

end Sys2Proof.Machine

/-! SUPPORT. How a command goes on after an answer to its own request (R197, R210), said once (`Decoder.Continues`): the
invariants, the phase sequences and termination are read off it. -/

namespace Sys2Proof.Machine

/-! ## How a command goes on -/

/-- R197, R210: all that can follow an answer to the own request of the record `d`. -/
inductive Decoder.Continues (d : Decoder) : Decoder → Prop where
  /-- The next phase of a sequence, in which no frame is begun and no bit accepted. -/
  | goesOn (q : Phase) (follows : phaseFollows d.phase q = true)
      (used : commandPhase d.op d.phase = true → commandPhase d.op q = true) (noBit : q ≠ .bitLow) : Continues d (d.goto q)
  /-- `READ` begins to sample (R160). -/
  | samplingBegun (high : d.phase = .ackHigh) (isRead : d.op = opRead) : Continues d (d.clearRaw.goto .bitLow)
  /-- A bit before the last is accepted (R162). -/
  | bitAccepted (c : Bit) (high : d.phase = .bitHigh) (more : d.bitidx.toNat < 39) :
      Continues d ((d.shiftRaw c (d.bitidx + 1#6)).goto .bitLow)
  /-- The last bit is accepted, and `READ` goes on to the check. -/
  | frameRead (c : Bit) (high : d.phase = .bitHigh) (isRead : d.op = opRead) : Continues d ((d.shiftRaw c 40#6).goto .check)
  /-- The last bit is accepted, and `SAMPLE` completes. -/
  | frameSampled (c : Bit) (high : d.phase = .bitHigh) : Continues d (d.shiftRaw c 40#6).finishOk
  /-- The command completes (R211). -/
  | finished : Continues d d.finishOk
  /-- The command ends with an error that it may report (R212, R220). -/
  | failed (e : ProtocolError) (w : Word) (may : commandPhase d.op d.phase = true → mayReport d.op e.kind = true) :
      Continues d (d.raise e w)

/-- The phases whose own request is answered `Ok` (R104, R122). -/
def Phase.takesOk (p : Phase) : Prop :=
  p = .bDirOut ∨ p = .bLow ∨ p = .bHold ∨ p = .bHigh ∨ p = .bDirIn ∨ p = .idleDir ∨ p = .idleLvl

/-- The phases whose own request is a wait (R104). -/
def Phase.waits (p : Phase) : Prop :=
  p = .ackStart ∨ p = .ackLow ∨ p = .ackHigh ∨ p = .bitLow ∨ p = .bitHigh ∨ p = .waitL

theorem Decoder.afterOk_continues {d : Decoder} (h : d.phase.takesOk) : d.Continues d.afterOk := by
  obtain hp | hp | hp | hp | hp | hp | hp := h
  case inr.inr.inr.inr.inr.inr => simp only [Decoder.afterOk, hp]; exact .finished
  all_goals
    simp only [Decoder.afterOk, hp]
    exact .goesOn _ (by rw [hp]; rfl) (by rw [hp]; exact id) (by decide)

/-- R220: each acknowledgment or level time-out is an error of every command that uses its phase. -/
theorem Decoder.afterTimeout_continues {d : Decoder} (h : d.phase.waits) (cfg : Config) :
    d.Continues (d.afterTimeout cfg) := by
  obtain hp | hp | hp | hp | hp | hp := h
  all_goals
    simp only [Decoder.afterTimeout, hp]
    refine .failed _ _ ?_
    rw [hp]
    generalize d.op = op
    revert op
    decide

theorem Decoder.acceptBit_continues {d : Decoder} (hp : d.phase = .bitHigh) (c : Bit) : d.Continues (d.acceptBit c) := by
  by_cases more : d.bitidx.toNat < 39
  · rw [Decoder.acceptBit_next more]
    exact .bitAccepted c hp more
  · by_cases isRead : d.op = opRead
    · rw [Decoder.acceptBit_last_read more isRead]
      exact .frameRead c hp isRead
    · rw [Decoder.acceptBit_last_other more isRead]
      exact .frameSampled c hp

theorem Decoder.afterAckStart_continues {d : Decoder} (hp : d.phase = .ackStart) : d.Continues d.afterAckStart := by
  by_cases isRead : d.op = opRead
  · rw [Decoder.afterAckStart_read isRead]
    exact .goesOn _ (by rw [hp]; rfl) (by rw [isRead]; exact fun _ => rfl) (by decide)
  · rw [Decoder.afterAckStart_other isRead]
    exact .finished

/-- R220: `AckPulseOutOfRange` is an error of both commands that use the acknowledgment phases. -/
theorem Decoder.failed_ackPulse {d : Decoder} (hp : d.phase = .ackLow ∨ d.phase = .ackHigh) (w : Word) :
    d.Continues (d.raise .ackPulseOutOfRange w) := by
  refine .failed _ _ ?_
  obtain hp | hp := hp
  all_goals
    rw [hp]
    exact id

theorem Decoder.afterAckLow_continues {d : Decoder} (hp : d.phase = .ackLow) (cfg : Config) (w : Word) :
    d.Continues (d.afterAckLow cfg w) := by
  by_cases inBand : ackOk cfg w = true
  · rw [Decoder.afterAckLow_inBand inBand]
    exact .goesOn _ (by rw [hp]; rfl) (by rw [hp]; exact id) (by decide)
  · rw [Decoder.afterAckLow, if_neg inBand]
    exact d.failed_ackPulse (.inl hp) w

theorem Decoder.afterAckHigh_continues {d : Decoder} (hp : d.phase = .ackHigh) (cfg : Config) (w : Word) :
    d.Continues (d.afterAckHigh cfg w) := by
  by_cases inBand : ackOk cfg w = true
  · by_cases isRead : d.op = opRead
    · rw [Decoder.afterAckHigh_read inBand isRead]
      exact .samplingBegun hp isRead
    · rw [Decoder.afterAckHigh_other inBand isRead]
      exact .finished
  · rw [Decoder.afterAckHigh, if_neg inBand]
    exact d.failed_ackPulse (.inr hp) w

theorem Decoder.afterBitHigh_continues {d : Decoder} (hp : d.phase = .bitHigh) (cfg : Config) (w : Word) :
    d.Continues (d.afterBitHigh cfg w) := by
  unfold Decoder.afterBitHigh
  split
  · exact .failed _ _ (by rw [hp]; exact id)
  · exact d.acceptBit_continues hp _

theorem Decoder.afterOkDur_continues {d : Decoder} (h : d.phase.waits) (cfg : Config) (w : Word) :
    d.Continues (d.afterOkDur cfg w) := by
  obtain hp | hp | hp | hp | hp | hp := h <;> simp only [Decoder.afterOkDur, hp]
  · exact d.afterAckStart_continues hp
  · exact d.afterAckLow_continues hp cfg w
  · exact d.afterAckHigh_continues hp cfg w
  · exact .goesOn _ (by rw [hp]; rfl) (by rw [hp]; exact id) (by decide)
  · exact d.afterBitHigh_continues hp cfg w
  · exact .finished

/-! ## The own request of a phase -/

/-- R104: a request that is answered `Ok` is the own one of phases that take `Ok`. -/
theorem takesOk_of_requestOf {cfg : Config} {d : Decoder} {i : Instr} (h : requestOf cfg d = some i)
    (hi : inDomain i .ok = true) : d.phase.takesOk := by
  cases hp : d.phase with
  | idle | check => simp [requestOf, hp] at h
  | bDirOut | bLow | bHold | bHigh | bDirIn | idleDir | idleLvl => simp [Phase.takesOk]
  | ackStart | ackLow | ackHigh | bitLow | bitHigh | waitL =>
    simp only [requestOf, hp, Option.some.injEq] at h
    subst h
    cases hi

/-- R104: a wait is the own request of phases that wait. -/
theorem waits_of_requestOf {cfg : Config} {d : Decoder} {l : Level} {t : Nat}
    (h : requestOf cfg d = some (.waitForLevel l t)) : d.phase.waits := by
  cases hp : d.phase with
  | idle | check | bDirOut | bLow | bHold | bHigh | bDirIn | idleDir | idleLvl => simp [requestOf, hp] at h
  | ackStart | ackLow | ackHigh | bitLow | bitHigh | waitL => simp [Phase.waits]

/-- R220: `PinFault` is an error of every command that issues a request. -/
theorem mayReport_pinFault {op : BitVec 4} {p : Phase} (hp : p ≠ .check) (h : commandPhase op p = true) :
    mayReport op .pinFault = true := by
  revert h op
  cases p with
  | check => exact absurd rfl hp
  | _ => decide

theorem Decoder.failed_pinFault {cfg : Config} {d : Decoder} {i : Instr} (h : requestOf cfg d = some i) (e w : Word) :
    d.Continues (d.raise (.pinFault e) w) :=
  .failed _ _ (mayReport_pinFault fun hp => by simp [requestOf, hp] at h)

/-- R196, R197: an answer of its domain to the own request, which may first write the level, the direction or the duration. -/
theorem Decoder.answeredBy_continues {cfg : Config} {d : Decoder} {i : Instr} {a : Answer}
    (h : requestOf cfg d = some i) (ha : inDomain i a = true) :
    (d.ownEffect i a).Continues (d.answeredBy cfg i a) := by
  rw [Decoder.answeredBy_own h]
  have own : requestOf cfg (d.ownEffect i a) = some i := by rw [requestOf_ownEffect, h]
  cases a with
  | ok => exact Decoder.afterOk_continues (takesOk_of_requestOf own ha)
  | fault e => exact Decoder.failed_pinFault own e _
  | okLevel =>
    cases i with
    | readLevel => exact absurd h (requestOf_ne_readLevel cfg d)
    | _ => cases ha
  | okDur w =>
    cases i with
    | waitForLevel => exact Decoder.afterOkDur_continues (waits_of_requestOf own) cfg w
    | _ => cases ha
  | timeout =>
    cases i with
    | waitForLevel => exact Decoder.afterTimeout_continues (waits_of_requestOf own) cfg
    | _ => cases ha

end Sys2Proof.Machine


/-! SUPPORT. What one step does to the whole state (`State.StepsTo`): the record, the configuration and the port. Unlike
`Decoder.StepsTo`, which is about the record alone, each effect names the move or the outstanding request that has it. -/

namespace Sys2Proof.Machine

/-! ## What a step does, with the move that does it -/

/-- R194: the record after the acceptance of the command `i`, whose first phase is `p`; `SAMPLE` runs its prologue. -/
def Decoder.accepted (i : Instr) (p : Phase) (d : Decoder) : Decoder :=
  match i with
  | .sample => (d.accept (encode .sample) p).clearRaw
  | i => d.accept (encode i) p

/-- All that one step from `s` can make of the decoder's record, each with the move of the script or the request that does
it. -/
inductive State.Effect (s : State) : Decoder → Prop where
  /-- A host read, a discarded write, a dropped answer, an internal move outside the check, or no move left. -/
  | kept : Effect s s.dec
  /-- Reset (R240). -/
  | cleared {rest : List Move} (move : s.script = .reset :: rest) : Effect s Decoder.reset
  /-- A write hit the busy lock (R76). -/
  | turnedAway {idx : Nat} {v : Word} {rest : List Move} (move : s.script = .host (.memWrite idx 4 v) :: rest)
      (locked : idx = 0 ∨ idx = 6 ∨ idx = 7) (busy : s.dec.busy = true) : Effect s s.dec.markOvr
  /-- An illegal word was written to `CMD` (R96). -/
  | illegalWord {v : Word} {rest : List Move} (move : s.script = .host (.memWrite 0 4 v) :: rest)
      (illegal : ∀ i, decode .cmd v ≠ .ok i) (idle : s.dec.busy = false) : Effect s s.dec.markIll
  /-- The host loaded `raw` (R75). -/
  | rawLoaded (f : Frame) (idle : s.dec.busy = false) : Effect s (s.dec.loadRaw f)
  /-- A command was accepted (R194). -/
  | accepted {i : Instr} {p : Phase} {rest : List Move} (move : s.script = .host (.memWrite 0 4 (encode i)) :: rest)
      (first : firstPhase i = some p) (idle : s.dec.busy = false) : Effect s (s.dec.accepted i p)
  /-- The check step (R196). -/
  | checked (check : s.dec.phase = .check) : Effect s s.dec.validate
  /-- The outstanding request was answered (R121). -/
  | answered {i : Instr} {a : Answer} (outstanding : s.pinReq = some (encode i)) (format : i.format = .pinreq)
      (fits : i.wf = true) (answer : inDomain i a = true) : Effect s (s.dec.answeredBy s.cfg i a)

/-- R83, R104: no answer is left on the port, and the phase's own request is outstanding. -/
def State.Settled (s : State) : Prop := s.pinAns = none ∧ s.pinReq = (requestOf s.cfg s.dec).map encode

/-- What one step from `s` to `t` does to the record, the configuration and the port. -/
structure State.StepsTo (s t : State) : Prop where
  effect : s.Effect t.dec
  cfg : t.cfg = s.cfg
  settled : s.Settled → t.Settled

/-- A step of the sequencer ends with its request on the port. -/
theorem State.StepsTo.of_settle {s u : State} {d : Decoder} (hu : u.cfg = s.cfg) (h : s.Effect d) :
    s.StepsTo (u.settle d) :=
  ⟨h, hu, fun _ => ⟨rfl, rfl⟩⟩

/-- A step that leaves the port leaves the phase's request. -/
theorem State.StepsTo.of_write {s : State} {d : Decoder} (h : s.Effect d)
    (hr : requestOf s.cfg d = requestOf s.cfg s.dec) (rest : List Move) (w : Word) :
    s.StepsTo { s with dec := d, script := rest, rdata := w } :=
  ⟨h, rfl, fun ⟨ha, hq⟩ => ⟨ha, hq.trans (congrArg _ hr.symm)⟩⟩

theorem State.StepsTo.of_kept (s : State) (rest : List Move) (w : Word) : s.StepsTo { s with script := rest, rdata := w } :=
  .of_write .kept rfl rest w

/-! ## Each move -/

/-- R194: an idle block accepts every command in its first phase. -/
theorem exec_command_idle {i : Instr} {s : State} (hf : i.format = .cmd) (hb : s.dec.busy = false) :
    ∃ p, firstPhase i = some p ∧ exec i s = .next (s.settle (s.dec.accepted i p)) := by
  cases i with
  | read | beginTxn | ackchk | sample | validate | waitl | idle => exact ⟨_, rfl, command_idle hb _⟩
  | setLevel | setDirection | readLevel | waitForLevel | delay => cases hf

/-- R121, R122: a request that has a record on the port and a next state was answered from its domain. -/
theorem exec_request_answered {i : Instr} {s t : State} {r : AnswerRec} (hf : i.format = .pinreq) (hp : s.pinAns = some r)
    (h : exec i s = .next t) :
    ∃ a, s.answered a ∧ inDomain i a = true ∧ t = s.settle (s.dec.answeredBy s.cfg i a) := by
  obtain ⟨onAnswer, hx⟩ := exists_exec_eq_pinCall hf s
  cases hr : decodeAnswer r with
  | error e => rw [hx, pinCall_reserved hp hr] at h; cases h
  | ok a =>
    have ha : s.answered a := hp.trans (congrArg _ (encodeAnswer_of_decodeAnswer hr).symm)
    by_cases hd : inDomain i a = true
    · rw [exec_answered hf ha hd] at h
      cases h
      exact ⟨a, ha, hd, rfl⟩
    · rw [hx, (pinCall_refused_answerOutsideDomain_iff ha i onAnswer).mpr hd] at h
      cases h

section Moves

variable {s t : State} {rest : List Move}

theorem writeCmd_step {v : Word} (hs : s.script = .host (.memWrite 0 4 v) :: rest)
    (h : writeCmd v { s with script := rest } = .next t) : s.StepsTo t := by
  obtain ⟨i, hd, hx⟩ | ⟨-, hb, rfl⟩ | ⟨illegal, hb, rfl⟩ := writeCmd_cases h
  · obtain ⟨rfl, hf, -⟩ := readsAs_of_decodeCmd hd
    cases hb : s.dec.busy with
    | true =>
      rw [exec_command_busy (s := { s with script := rest }) hf hb] at hx
      cases hx
      exact .of_write (.turnedAway hs (.inl rfl) hb) rfl rest s.rdata
    | false =>
      obtain ⟨p, first, accepted⟩ := exec_command_idle (s := { s with script := rest }) hf hb
      rw [accepted] at hx
      cases hx
      exact .of_settle rfl (.accepted hs first hb)
  · exact .of_write (.turnedAway hs (.inl rfl) hb) rfl rest s.rdata
  · exact .of_write (.illegalWord hs illegal hb) rfl rest s.rdata

theorem writeRaw_step {idx : Nat} {v : Word} {f : Frame} (hs : s.script = .host (.memWrite idx 4 v) :: rest)
    (hi : idx = 6 ∨ idx = 7) (h : writeRaw f { s with script := rest } = .next t) : s.StepsTo t := by
  obtain ⟨hb, rfl⟩ | ⟨hb, rfl⟩ := writeRaw_cases h
  · exact .of_write (.turnedAway hs (.inr hi) hb) rfl rest s.rdata
  · exact .of_write (s := s) (.rawLoaded f hb) rfl rest s.rdata

theorem hostMove_step {a : HostAccess} (hs : s.script = .host a :: rest)
    (h : hostMove a { s with script := rest } = .next t) : s.StepsTo t := by
  obtain ⟨_, rfl, -, rfl⟩ | ⟨_, rfl, hw⟩ | ⟨_, rfl, hw⟩ | ⟨_, rfl, hw⟩ | ⟨_, _, rfl, -, -, -, -, rfl⟩ := hostMove_cases h
  · exact .of_kept s rest _
  · exact writeCmd_step hs hw
  · exact writeRaw_step hs (.inl rfl) hw
  · exact writeRaw_step hs (.inr rfl) hw
  · exact .of_kept s rest s.rdata

theorem answerMove_step {r : AnswerRec} (h : answerMove r { s with script := rest } = .next t) : s.StepsTo t := by
  obtain ⟨-, rfl⟩ | ⟨w, i, hq, hd, hx⟩ := answerMove_cases h
  · exact .of_kept s rest s.rdata
  · obtain ⟨rfl, hf, hw⟩ := readsAs_of_decodePin hd
    obtain ⟨a, -, ha, rfl⟩ := exec_request_answered (s := { s with script := rest, pinAns := some r }) hf rfl hx
    exact .of_settle rfl (.answered hq hf hw ha)

/-- R196: the internal step is the check step, or none. -/
theorem internalStep_step (s : State) (rest : List Move) : s.StepsTo (internalStep { s with script := rest }) := by
  by_cases hp : s.dec.phase = .check
  · rw [internalStep_check (s := { s with script := rest }) hp]
    exact .of_settle rfl (.checked hp)
  · rw [internalStep_other (s := { s with script := rest }) hp]
    exact .of_kept s rest s.rdata

end Moves

/-- A step does what `State.StepsTo` lists, and nothing else. -/
theorem step_stepsTo_state {s t : State} (h : step s = .next t) : s.StepsTo t := by
  rw [step_legal (legal_of_step h)] at h
  cases hs : s.script with
  | nil =>
    rw [nextMove_nil hs] at h
    cases h
    exact internalStep_step s s.script
  | cons m rest =>
    rw [nextMove_cons hs] at h
    cases m with
    | host a => exact hostMove_step hs h
    | answer r => exact answerMove_step h
    | internal => cases h; exact internalStep_step s rest
    | reset => cases h; exact ⟨.cleared hs, rfl, fun _ => ⟨rfl, rfl⟩⟩

/-! ## The configuration -/

/-- R48: registers 9 to 14 show the configuration alone. -/
theorem readRegister_config {idx : Nat} (h9 : 9 ≤ idx) (h14 : idx ≤ 14) (cfg : Config) (d d' : Decoder) :
    readRegister cfg d idx = readRegister cfg d' idx := by
  interval_cases idx <;> rfl

/-- Settles O41: no effect names the configuration. -/
theorem noStepChangesTheConfiguration : Obligations.NoStepChangesTheConfiguration := by
  intro s t h
  have cfg := (step_stepsTo_state h).cfg
  refine ⟨cfg, fun idx h9 h14 => ?_⟩
  rw [cfg]
  exact readRegister_config h9 h14 s.cfg t.dec s.dec

/-! ## What an answer leaves -/

/-- R41, R219: the flags `ILL` and `OVR` and the Measurement are those of `d`. -/
def Decoder.SameFlags (d d' : Decoder) : Prop := d'.ill = d.ill ∧ d'.ovr = d.ovr ∧ d.SameMeasurement d'

theorem Decoder.Continues.sameFlags {d d' : Decoder} (h : d.Continues d') : d.SameFlags d' := by
  cases h <;> exact ⟨rfl, rfl, rfl, rfl⟩

/-- All that an answer of the domain can do: a fault, the effect of a foreign request, or the command goes on. -/
theorem Decoder.answeredBy_cases {i : Instr} {a : Answer} (ha : inDomain i a = true) (cfg : Config) (d : Decoder) :
    (∃ e, d.answeredBy cfg i a = d.raise (.pinFault e) 0#32) ∨ d.answeredBy cfg i a = d.ownEffect i a ∨
      (d.ownEffect i a).Continues (d.answeredBy cfg i a) := by
  by_cases own : requestOf cfg d = some i
  · exact .inr (.inr (Decoder.answeredBy_continues own ha))
  · by_cases hf : ∃ e, a = .fault e
    · obtain ⟨e, rfl⟩ := hf
      exact .inl ⟨e, rfl⟩
    · exact .inr (.inl (Decoder.answeredBy_foreign own fun e he => hf ⟨e, he⟩))

theorem Decoder.ownEffect_sameFlags (i : Instr) (a : Answer) (d : Decoder) : d.SameFlags (d.ownEffect i a) := by
  unfold Decoder.ownEffect
  split <;> exact ⟨rfl, rfl, rfl, rfl⟩

theorem Decoder.SameFlags.trans {d d' d'' : Decoder} (h : d.SameFlags d') (h' : d'.SameFlags d'') : d.SameFlags d'' := by
  obtain ⟨ill, ovr, meas, mvalid⟩ := h
  obtain ⟨ill', ovr', meas', mvalid'⟩ := h'
  exact ⟨ill'.trans ill, ovr'.trans ovr, meas'.trans meas, mvalid'.trans mvalid⟩

theorem Decoder.answeredBy_sameFlags {i : Instr} {a : Answer} (ha : inDomain i a = true) (cfg : Config) (d : Decoder) :
    d.SameFlags (d.answeredBy cfg i a) := by
  obtain ⟨e, fault⟩ | foreign | own := Decoder.answeredBy_cases ha cfg d
  · rw [fault]; exact ⟨rfl, rfl, rfl, rfl⟩
  · rw [foreign]; exact d.ownEffect_sameFlags i a
  · exact (d.ownEffect_sameFlags i a).trans own.sameFlags

/-- R194: acceptance leaves them. -/
theorem Decoder.accepted_sameFlags (i : Instr) (p : Phase) (d : Decoder) : d.SameFlags (d.accepted i p) := by
  cases i <;> exact ⟨rfl, rfl, rfl, rfl⟩

/-- R41, R182: the check step leaves the flags. -/
theorem Decoder.validate_flags (d : Decoder) : d.validate.ill = d.ill ∧ d.validate.ovr = d.ovr := by
  by_cases passes : frameSum d.raw = d.raw[4]
  · rw [Decoder.validate_passed passes]; exact ⟨rfl, rfl⟩
  · rw [Decoder.validate_failed passes]; exact ⟨rfl, rfl⟩

/-! ## The flags -/

/-- R41: outside reset a step keeps a flag, but for the lock, which sets `OVR`, and an illegal word, which sets `ILL`. -/
theorem State.Effect.flags_cases {s : State} {d : Decoder} (h : s.Effect d) :
    (∃ rest, s.script = .reset :: rest ∧ d = Decoder.reset) ∨ (d.ill = s.dec.ill ∧ d.ovr = s.dec.ovr) ∨
    ((∃ idx v rest, s.script = .host (.memWrite idx 4 v) :: rest ∧ (idx = 0 ∨ idx = 6 ∨ idx = 7)) ∧
      s.dec.busy = true ∧ d = s.dec.markOvr) ∨
    ((∃ v rest, s.script = .host (.memWrite 0 4 v) :: rest ∧ ∀ i, decode .cmd v ≠ .ok i) ∧
      s.dec.busy = false ∧ d = s.dec.markIll) := by
  cases h with
  | cleared move => exact .inl ⟨_, move, rfl⟩
  | turnedAway move locked busy => exact .inr (.inr (.inl ⟨⟨_, _, _, move, locked⟩, busy, rfl⟩))
  | illegalWord move illegal idle => exact .inr (.inr (.inr ⟨⟨_, _, move, illegal⟩, idle, rfl⟩))
  | kept | rawLoaded => exact .inr (.inl ⟨rfl, rfl⟩)
  | accepted =>
    obtain ⟨ill, ovr, -⟩ := s.dec.accepted_sameFlags _ _
    exact .inr (.inl ⟨ill, ovr⟩)
  | checked => exact .inr (.inl s.dec.validate_flags)
  | answered _ _ _ ha =>
    obtain ⟨ill, ovr, -⟩ := s.dec.answeredBy_sameFlags ha s.cfg
    exact .inr (.inl ⟨ill, ovr⟩)

/-- Settles O42: by the four things that a step can do to the flags. -/
theorem illegalAndOverrunFlagsAreSticky : Obligations.IllegalAndOverrunFlagsAreSticky := by
  intro s t h
  obtain ⟨rest, move, hd⟩ | ⟨ill, ovr⟩ | ⟨locked, busy, hd⟩ | ⟨illegal, idle, hd⟩ := (step_stepsTo_state h).effect.flags_cases
  · rw [hd]
    exact ⟨fun other => absurd move (other rest), fun _ set => Bool.noConfusion set, fun _ set => Bool.noConfusion set⟩
  · rw [ill, ovr]
    exact ⟨fun _ => ⟨id, id⟩, fun clear set => by simp [clear] at set, fun clear set => by simp [clear] at set⟩
  · rw [hd]
    exact ⟨fun _ => ⟨id, fun _ => rfl⟩, fun clear set => by simp [clear] at set, fun _ _ => ⟨locked, busy, rfl, rfl, rfl⟩⟩
  · rw [hd]
    exact ⟨fun _ => ⟨fun _ => rfl, id⟩, fun _ _ => ⟨illegal, idle, rfl, rfl, rfl⟩, fun clear set => by simp [clear] at set⟩

/-! ## The Measurement -/

/-- R35, R182: outside reset a step is a passed check, or it leaves the Measurement. -/
theorem State.Effect.measurement_cases {s : State} {d : Decoder} (h : s.Effect d) (hr : ∀ rest, s.script ≠ .reset :: rest) :
    (s.dec.phase = .check ∧ frameSum s.dec.raw = s.dec.raw[4] ∧ d = s.dec.buildMeas.finishOk) ∨ s.dec.SameMeasurement d := by
  cases h with
  | cleared move => exact absurd move (hr _)
  | kept | turnedAway | illegalWord | rawLoaded => exact .inr ⟨rfl, rfl⟩
  | accepted =>
    obtain ⟨-, -, same⟩ := s.dec.accepted_sameFlags _ _
    exact .inr same
  | answered _ _ _ ha =>
    obtain ⟨-, -, same⟩ := s.dec.answeredBy_sameFlags ha s.cfg
    exact .inr same
  | checked check =>
    by_cases passes : frameSum s.dec.raw = s.dec.raw[4]
    · exact .inl ⟨check, passes, Decoder.validate_passed passes⟩
    · rw [Decoder.validate_failed passes]
      exact .inr ⟨rfl, rfl⟩

/-- Settles O43: a changed Measurement is that of a passed check. -/
theorem measurementIsWrittenOnlyByAPassedCheck : Obligations.MeasurementIsWrittenOnlyByAPassedCheck := by
  intro s t h hr changed
  obtain ⟨check, passes, hd⟩ | ⟨meas, mvalid⟩ := (step_stepsTo_state h).effect.measurement_cases hr
  · have sum := congrArg BitVec.toNat passes
    rw [toNat_frameSum] at sum
    rw [hd]
    exact ⟨check, sum, rfl, rfl, rfl, rfl, rfl⟩
  · obtain changed | changed := changed
    · exact absurd meas changed
    · exact absurd mvalid changed

end Sys2Proof.Machine


/-! SUPPORT. The invariants (R55, R104, R162, R220) and the phase sequences (R105): what completes a command, what ends it with
an error and what goes on each keeps them. -/

namespace Sys2Proof.Machine

/-! ## The own request under the invariant -/

/-- R104: the word outstanding is read as the phase's own request. -/
theorem State.Inv.requestOf_eq {s : State} (inv : s.Inv) {i : Instr} (hq : s.pinReq = some (encode i))
    (hf : i.format = .pinreq) (hw : i.wf = true) : requestOf s.cfg s.dec = some i := by
  have own := inv.own_request
  cases hr : requestOf s.cfg s.dec with
  | none => rw [hr, hq] at own; cases own
  | some j =>
    obtain ⟨hfj, hwj⟩ := requestOf_wf inv.cfg_legal hr
    rw [hr, hq] at own
    have same : decode .pinreq (encode i) = decode .pinreq (encode j) := congrArg _ (Option.some.inj own)
    rw [decode_encode_request hf hw, decode_encode_request hfj hwj] at same
    cases same
    rfl

theorem ne_idle_of_requestOf {cfg : Config} {d : Decoder} {i : Instr} (h : requestOf cfg d = some i) :
    d.phase ≠ .idle := fun hp => by
  simp [requestOf, hp] at h

/-! ## A consistent record -/

/-- R194, R212: the flags and the result record of a command in flight. -/
def Decoder.InFlight (d : Decoder) : Prop :=
  (d.busy = true ∧ d.done = false ∧ d.ok = false ∧ d.err = .none) ∧
  d.eidx = 0#6 ∧ d.ecomp = 0#8 ∧ d.erecv = 0#8 ∧ d.ephase = .idle ∧ d.edur = 0#32 ∧ d.pinerr = 0#32

theorem Decoder.Consistent.inFlight {d : Decoder} (h : d.Consistent) (hp : d.phase ≠ .idle) : d.InFlight := by
  have busy := h.busy_iff.mpr hp
  exact ⟨⟨busy, h.busy_clear busy⟩, h.record_clear busy⟩

/-- A command in flight is consistent in a phase that it uses, with a bit index for that phase. -/
theorem Decoder.InFlight.consistent {d : Decoder} (h : d.InFlight) (used : commandPhase d.op d.phase = true)
    (le : d.bitidx.toNat ≤ 40) (lt : d.phase = .bitLow ∨ d.phase = .bitHigh → d.bitidx.toNat < 40) : d.Consistent := by
  obtain ⟨⟨busy, done, ok, err⟩, record⟩ := h
  have running : d.phase ≠ .idle := fun hp => by rw [hp] at used; cases used
  exact {
    busy_iff := iff_of_true busy running
    done_not_busy := by simp [done]
    ok_done := by simp [ok]
    failed_err := by simp [done]
    busy_clear := fun _ => ⟨done, ok, err⟩
    record_clear := fun _ => record
    bitidx_le := le
    sampling_lt := lt
    phase_of_op := fun _ => used
    err_of_op := by simp [done] }

/-- R211: a completed command is consistent. -/
theorem consistent_finishOk {d : Decoder} (le : d.bitidx.toNat ≤ 40) : d.finishOk.Consistent := by
  constructor <;> simp [le, mayReport]

/-- R212, R220: a command ended by an error that it may report is consistent. -/
theorem consistent_raise {d : Decoder} {e : ProtocolError} (le : d.bitidx.toNat ≤ 40)
    (may : mayReport d.op e.kind = true) (w : Word) : (d.raise e w).Consistent := by
  have failed : e.kind ≠ .none := by cases e <;> simp [ProtocolError.kind]
  constructor <;> simp [le, may, failed]

/-- R55: the level, the direction and the duration are no part of it. -/
theorem Decoder.Consistent.of_ownEffect {d : Decoder} (h : d.Consistent) (i : Instr) (a : Answer) :
    (d.ownEffect i a).Consistent := by
  unfold Decoder.ownEffect
  split <;> exact { h with }

/-- R105: `BIT_HIGH` follows `BIT_LOW` only. -/
theorem eq_bitLow_of_follows {p : Phase} (h : phaseFollows p .bitHigh = true) : p = .bitLow := by
  cases p with
  | bitLow => rfl
  | _ => cases h

/-- R32: the index of a bit before the last goes up by one. -/
theorem toNat_index_succ {i : BitVec 6} (h : i.toNat < 39) : (i + 1#6).toNat = i.toNat + 1 := by
  rw [BitVec.toNat_add, BitVec.toNat_ofNat]
  omega

/-- R197, R211, R212: the sequel of an answered request is consistent. -/
theorem Decoder.Consistent.of_continues {d d' : Decoder} (h : d.Consistent) (running : d.phase ≠ .idle)
    (c : d.Continues d') : d'.Consistent := by
  have inFlight := h.inFlight running
  have used := h.phase_of_op running
  cases c with
  | goesOn q follows next noBit =>
    refine Decoder.InFlight.consistent inFlight (next used) h.bitidx_le fun sampling => ?_
    obtain low | high := sampling
    · exact absurd low noBit
    · rw [Decoder.goto_phase] at high
      rw [high] at follows
      exact h.sampling_lt (.inl (eq_bitLow_of_follows follows))
  | samplingBegun high isRead =>
    exact Decoder.InFlight.consistent inFlight (by simp [isRead]; rfl) (by simp) (by simp)
  | bitAccepted c high more =>
    have index := toNat_index_succ more
    rw [high] at used
    exact Decoder.InFlight.consistent inFlight used (by simp [index]; omega) (by simp [index]; omega)
  | frameRead c high isRead =>
    exact Decoder.InFlight.consistent inFlight (by simp [isRead]; rfl) (by simp) (by simp)
  | frameSampled => exact consistent_finishOk (by simp)
  | finished => exact consistent_finishOk h.bitidx_le
  | failed e w may => exact consistent_raise h.bitidx_le (may used) w

/-- R194: what acceptance latches and clears is consistent in a phase that the word's command uses. -/
theorem Decoder.consistent_accept {v : Word} {p : Phase} (used : commandPhase (cmdOp v) p = true) (d : Decoder) :
    (d.accept v p).Consistent :=
  Decoder.InFlight.consistent ⟨⟨rfl, rfl, rfl, rfl⟩, rfl, rfl, rfl, rfl, rfl, rfl⟩ used (by simp) (by simp)

/-- R104, R194: every command uses its first phase. -/
theorem commandPhase_firstPhase {i : Instr} {p : Phase} (first : firstPhase i = some p) :
    commandPhase (cmdOp (encode i)) p = true := by
  cases i with
  | read | beginTxn | ackchk | sample | validate | waitl | idle => cases first; simp [encode, commandPhase]
  | setLevel | setDirection | readLevel | waitForLevel | delay => cases first

theorem Decoder.consistent_accepted {i : Instr} {p : Phase} (first : firstPhase i = some p) (d : Decoder) :
    (d.accepted i p).Consistent := by
  have c := d.consistent_accept (commandPhase_firstPhase first)
  cases i with
  | sample => exact { c with }
  | _ => exact c

/-- R180, R211, R217: the check step of a command leaves it consistent. -/
theorem Decoder.Consistent.of_validate {d : Decoder} (h : d.Consistent) (check : d.phase = .check) :
    d.validate.Consistent := by
  have used := h.phase_of_op (by rw [check]; decide)
  rw [check] at used
  by_cases passes : frameSum d.raw = d.raw[4]
  · rw [Decoder.validate_passed passes]
    exact consistent_finishOk (d := d.buildMeas) h.bitidx_le
  · rw [Decoder.validate_failed passes]
    exact consistent_raise (e := .checksumMismatch _ _) h.bitidx_le used _

/-- R55: every effect of a step keeps the record consistent. -/
theorem State.Inv.consistent_of_effect {s : State} (inv : s.Inv) {d : Decoder} (h : s.Effect d) : d.Consistent := by
  have c := inv.consistent
  cases h with
  | kept => exact c
  | cleared => exact reset_consistent
  | turnedAway | illegalWord | rawLoaded => exact { c with }
  | accepted _ first => exact s.dec.consistent_accepted first
  | checked check => exact c.of_validate check
  | @answered i a hq hf hw ha =>
    have own := inv.requestOf_eq hq hf hw
    have running : (s.dec.ownEffect i a).phase ≠ .idle :=
      ne_idle_of_requestOf ((requestOf_ownEffect s.cfg i a s.dec).trans own)
    exact (c.of_ownEffect i a).of_continues running (s.dec.answeredBy_continues own ha)

/-- Settles O39: the record by the effect of the step, and the configuration and the port by what every step leaves. -/
theorem everyStepKeepsTheInvariant : Obligations.EveryStepKeepsTheInvariant := by
  intro s t inv h
  obtain ⟨effect, cfg, settled⟩ := step_stepsTo_state h
  obtain ⟨noAnswer, ownRequest⟩ := settled ⟨inv.no_answer, inv.own_request⟩
  exact ⟨cfg ▸ inv.cfg_legal, inv.consistent_of_effect effect, noAnswer, ownRequest⟩

end Sys2Proof.Machine


/-! SUPPORT. The partial frame (R162) and the phase sequences (R105), by the effects of a step. -/

namespace Sys2Proof.Machine

/-! ## The partial frame -/

theorem partialFrame_zero : partialFrame Frame.zero 0 := fun k => by
  simp [Frame.zero]

/-- R162: a bit shifted into a byte of `j` bits makes it one of `j + 1`. -/
theorem shifted_lt {b j : Nat} (h : b < 2 ^ j) (c : Bit) : 2 * b + c.toNat < 2 ^ (j + 1) := by
  have bit := c.toNat_lt
  rw [Nat.pow_succ]
  omega

/-- R162: the bit of index i goes above nothing but the bits accepted so far. -/
theorem partialFrame_shiftIn {f : Frame} {i : Nat} (h : partialFrame f i) (hi : i < 40) (c : Bit) :
    partialFrame (shiftIn f i c) (i + 1) := fun k => by
  obtain ⟨byte, hb⟩ : ∃ byte : Fin 5, i / 8 = byte.val := ⟨⟨i / 8, by omega⟩, rfl⟩
  rw [shiftIn_eq_set f hb c, Fin.getElem_fin, Vector.getElem_set]
  split
  case isTrue here =>
    have room : min 8 (i - 8 * byte.val) + 1 = min 8 (i + 1 - 8 * k.val) := by omega
    have bound := shifted_lt (h byte) c
    rw [room] at bound
    exact Nat.lt_of_le_of_lt (Nat.mod_le _ _) bound
  case isFalse =>
    exact Nat.lt_of_lt_of_le (h k) (Nat.pow_le_pow_right (by decide) (by omega))

/-- A record outside the sampling phases has no partial frame to keep. -/
theorem Decoder.samplingFrame_of_phase {d : Decoder} (low : d.phase ≠ .bitLow) (high : d.phase ≠ .bitHigh) :
    d.SamplingFrame := fun sampling => by
  obtain hp | hp := sampling
  · exact absurd hp low
  · exact absurd hp high

/-- R160: a cleared frame at bit 0. -/
theorem Decoder.samplingFrame_of_cleared {d : Decoder} (raw : d.raw = Frame.zero) (index : d.bitidx = 0#6) :
    d.SamplingFrame := fun _ => by
  rw [raw, index]
  exact partialFrame_zero

theorem Decoder.SamplingFrame.of_ownEffect {d : Decoder} (h : d.SamplingFrame) (i : Instr) (a : Answer) :
    (d.ownEffect i a).SamplingFrame := by
  unfold Decoder.ownEffect
  split <;> exact h

/-- R162: the sequel of an answered request begins with a cleared frame, keeps the frame, or shifts one bit in. -/
theorem Decoder.SamplingFrame.of_continues {d d' : Decoder} (h : d.SamplingFrame) (c : d.Continues d') :
    d'.SamplingFrame := by
  cases c with
  | goesOn q follows _ noBit =>
    intro sampling
    obtain low | high := sampling
    · exact absurd low noBit
    · rw [Decoder.goto_phase] at high
      rw [high] at follows
      exact h (.inl (eq_bitLow_of_follows follows))
  | samplingBegun => exact Decoder.samplingFrame_of_cleared rfl rfl
  | bitAccepted c high more =>
    intro _
    rw [Decoder.goto_raw, Decoder.goto_bitidx, Decoder.shiftRaw_raw, Decoder.shiftRaw_bitidx, toNat_index_succ more]
    exact partialFrame_shiftIn (h (.inr high)) (by omega) c
  | frameRead | frameSampled | finished | failed => exact Decoder.samplingFrame_of_phase (by simp) (by simp)

/-- R160, R194: of the commands only `SAMPLE` starts to sample, and it clears the frame. -/
theorem Decoder.samplingFrame_accepted {i : Instr} {p : Phase} (first : firstPhase i = some p) (d : Decoder) :
    (d.accepted i p).SamplingFrame := by
  cases i with
  | sample => exact Decoder.samplingFrame_of_cleared rfl rfl
  | read | beginTxn | ackchk | validate | waitl | idle =>
    cases first
    exact Decoder.samplingFrame_of_phase (by simp [Decoder.accepted]) (by simp [Decoder.accepted])
  | setLevel | setDirection | readLevel | waitForLevel | delay => cases first

/-- R55: an idle block is in phase `IDLE`. -/
theorem Decoder.Consistent.phase_idle {d : Decoder} (h : d.Consistent) (idle : d.busy = false) : d.phase = .idle := by
  by_contra running
  rw [h.busy_iff.mpr running] at idle
  cases idle

/-- R75, R162: the host loads `raw` in an idle block only, and of the other effects two touch the frame of a sampling phase:
the prologue and an accepted bit. -/
theorem State.Inv.samplingFrame_of_effect {s : State} (inv : s.Inv) (frame : s.dec.SamplingFrame) {d : Decoder}
    (h : s.Effect d) : d.SamplingFrame := by
  cases h with
  | kept | turnedAway | illegalWord => exact frame
  | cleared => exact reset_samplingFrame
  | rawLoaded f idle =>
    have hp := inv.consistent.phase_idle idle
    exact Decoder.samplingFrame_of_phase (by simp [hp]) (by simp [hp])
  | accepted _ first => exact s.dec.samplingFrame_accepted first
  | checked => exact Decoder.samplingFrame_of_phase (by simp) (by simp)
  | @answered i a hq hf hw ha =>
    exact (frame.of_ownEffect i a).of_continues (s.dec.answeredBy_continues (inv.requestOf_eq hq hf hw) ha)

/-- Settles O40: by the effect of the step. -/
theorem everyStepKeepsThePartialFrame : Obligations.EveryStepKeepsThePartialFrame :=
  fun _ _ inv frame h => inv.samplingFrame_of_effect frame (step_stepsTo_state h).effect

/-! ## The phase sequences -/

/-- R197: the sequel of an answered request is the next phase of a sequence, or the end. -/
theorem Decoder.Continues.phase {d d' : Decoder} (h : d.Continues d') :
    d'.phase = .idle ∨ phaseFollows d.phase d'.phase = true := by
  cases h with
  | goesOn q follows => exact .inr follows
  | samplingBegun high | bitAccepted _ high | frameRead _ high => exact .inr (by rw [high]; rfl)
  | frameSampled | finished | failed => exact .inl rfl

theorem Decoder.ownEffect_phase (i : Instr) (a : Answer) (d : Decoder) : (d.ownEffect i a).phase = d.phase := by
  unfold Decoder.ownEffect
  split <;> rfl

theorem Decoder.accepted_phase (i : Instr) (p : Phase) (d : Decoder) : (d.accepted i p).phase = p := by
  cases i <;> rfl

/-- Settles O45: a command is accepted in phase `IDLE`, and an answered request goes on by the sequences. -/
theorem phasesFollowTheSequences : Obligations.PhasesFollowTheSequences := by
  intro s t inv h
  have effect := (step_stepsTo_state h).effect
  generalize t.dec = d at effect
  cases effect with
  | kept | turnedAway | illegalWord | rawLoaded => exact .inl rfl
  | cleared => exact .inr (.inl rfl)
  | checked => exact .inr (.inl s.dec.validate_phase)
  | @accepted i p rest move first idle =>
    rw [Decoder.accepted_phase]
    exact .inr (.inr (.inr ⟨inv.consistent.phase_idle idle, i, rest, move, first⟩))
  | @answered i a hq hf hw ha =>
    have next := (s.dec.answeredBy_continues (inv.requestOf_eq hq hf hw) ha).phase
    rw [Decoder.ownEffect_phase] at next
    obtain ended | follows := next
    · exact .inr (.inl ended)
    · exact .inr (.inr (.inl follows))

end Sys2Proof.Machine


/-! SUPPORT. `DUR` (R46, R53): what each operation does to a record with another value in `dur`, and so each move. -/

namespace Sys2Proof.Machine

/-! ## Records that differ in `dur` -/

/-- `d'` is what becomes of `d` and `e` what becomes of `d` with `x` in `dur`: they differ in `dur` alone, where each has kept its
own value or `e` has the new value of `d'`. -/
def Decoder.AgreesButDur (x : Word) (d d' e : Decoder) : Prop :=
  ∃ y, e = d'.setDur y ∧ ((d'.dur = d.dur ∧ y = x) ∨ y = d'.dur)

theorem Decoder.AgreesButDur.of_kept {x : Word} {d d' e : Decoder} (he : e = d'.setDur x) (hd : d'.dur = d.dur) :
    d.AgreesButDur x d' e :=
  ⟨x, he, .inl ⟨hd, rfl⟩⟩

theorem Decoder.AgreesButDur.of_written (x : Word) (d d' : Decoder) : d.AgreesButDur x d' d' :=
  ⟨d'.dur, rfl, .inr rfl⟩

theorem Decoder.afterOk_setDur (x : Word) (d : Decoder) :
    (d.setDur x).afterOk = d.afterOk.setDur x ∧ d.afterOk.dur = d.dur := by
  unfold Decoder.afterOk
  rw [Decoder.setDur_phase]
  cases d.phase <;> exact ⟨rfl, rfl⟩

theorem Decoder.afterTimeout_setDur (cfg : Config) (x : Word) (d : Decoder) :
    (d.setDur x).afterTimeout cfg = (d.afterTimeout cfg).setDur x ∧ (d.afterTimeout cfg).dur = d.dur := by
  unfold Decoder.afterTimeout
  rw [Decoder.setDur_phase]
  cases d.phase <;> exact ⟨rfl, rfl⟩

theorem Decoder.AgreesButDur.of_whenOwn {x : Word} {cfg : Config} {req : Instr} {d d' : Decoder} {goOn : Decoder → Decoder}
    (hd : d'.dur = d.dur) (hgo : (goOn (d'.setDur x)) = (goOn d').setDur x ∧ (goOn d').dur = d'.dur) :
    d.AgreesButDur x (whenOwn cfg req d' goOn) (whenOwn cfg req (d'.setDur x) goOn) := by
  have same : requestOf cfg (d'.setDur x) = requestOf cfg d' := rfl
  by_cases own : requestOf cfg d' = some req
  · rw [whenOwn_own own, whenOwn_own (same.trans own)]
    exact .of_kept hgo.1 (hgo.2.trans hd)
  · rw [whenOwn_other own, whenOwn_other (same ▸ own)]
    exact .of_kept rfl hd

/-- R46: only a duration answered to a wait writes `dur`, and nothing reads it. -/
theorem Decoder.answeredBy_agreesButDur {i : Instr} {a : Answer} (ha : inDomain i a = true) (cfg : Config) (x : Word)
    (d : Decoder) : d.AgreesButDur x (d.answeredBy cfg i a) ((d.setDur x).answeredBy cfg i a) := by
  cases a with
  | fault e => exact .of_kept rfl rfl
  | ok =>
    cases i with
    | setLevel l => exact .of_whenOwn (d' := d.setPlvl l) rfl ((d.setPlvl l).afterOk_setDur x)
    | setDirection r => exact .of_whenOwn (d' := d.setPdir r) rfl ((d.setPdir r).afterOk_setDur x)
    | delay => exact .of_whenOwn (d' := d) rfl (d.afterOk_setDur x)
    | _ => cases ha
  | okLevel =>
    cases i with
    | readLevel => exact .of_whenOwn (d' := d) rfl ⟨rfl, rfl⟩
    | _ => cases ha
  | okDur w =>
    cases i with
    | waitForLevel => exact .of_written x d _
    | _ => cases ha
  | timeout =>
    cases i with
    | waitForLevel => exact .of_whenOwn (d' := d) rfl (d.afterTimeout_setDur cfg x)
    | _ => cases ha

theorem Decoder.validate_setDur (x : Word) (d : Decoder) :
    (d.setDur x).validate = d.validate.setDur x ∧ d.validate.dur = d.dur := by
  by_cases passes : frameSum d.raw = d.raw[4]
  · rw [Decoder.validate_passed passes, Decoder.validate_passed (d := d.setDur x) passes]
    exact ⟨rfl, rfl⟩
  · rw [Decoder.validate_failed passes, Decoder.validate_failed (d := d.setDur x) passes]
    exact ⟨rfl, rfl⟩

theorem Decoder.accepted_setDur (i : Instr) (p : Phase) (x : Word) (d : Decoder) :
    (d.setDur x).accepted i p = (d.accepted i p).setDur x ∧ (d.accepted i p).dur = d.dur := by
  cases i <;> exact ⟨rfl, rfl⟩

/-- R71: the other registers do not show it. -/
theorem readRegister_setDur {idx : Nat} (h : idx ≠ 5) (cfg : Config) (x : Word) (d : Decoder) :
    readRegister cfg (d.setDur x) idx = readRegister cfg d idx := by
  unfold readRegister
  split
  case h_5 => exact absurd rfl h
  all_goals rfl

/-! ## States that differ in `dur` -/

/-- The state with `x` in `dur`. -/
def State.withDur (x : Word) (s : State) : State := { s with dec := s.dec.setDur x }

/-- The result `r` is the state `t` that becomes of `s`, but for `dur`. -/
def State.AgreesButDur (x : Word) (s t : State) (r : Result) : Prop :=
  ∃ y, r = .next (t.withDur y) ∧ ((t.dec.dur = s.dec.dur ∧ y = x) ∨ y = t.dec.dur)

/-- R104: `dur` is no part of the phase's request. -/
theorem State.AgreesButDur.of_settle {x : Word} {s : State} {d e : Decoder} (h : s.dec.AgreesButDur x d e) :
    s.AgreesButDur x (s.settle d) (.next ((s.withDur x).settle e)) := by
  obtain ⟨y, rfl, hy⟩ := h
  exact ⟨y, rfl, hy⟩

theorem State.AgreesButDur.of_kept {x : Word} {s t : State} {r : Result} (hr : r = .next (t.withDur x))
    (ht : t.dec.dur = s.dec.dur) : s.AgreesButDur x t r :=
  ⟨x, hr, .inl ⟨ht, rfl⟩⟩

section Moves

variable {s t : State}

theorem exec_agreesButDur {i : Instr} (h : exec i s = .next t) (x : Word) :
    s.AgreesButDur x t (exec i (s.withDur x)) := by
  cases hf : i.format with
  | cmd =>
    cases hb : s.dec.busy with
    | true =>
      rw [exec_command_busy hf hb] at h
      cases h
      exact .of_kept (exec_command_busy (s := s.withDur x) hf hb) rfl
    | false =>
      obtain ⟨p, first, accepted⟩ := exec_command_idle hf hb
      obtain ⟨p', first', accepted'⟩ := exec_command_idle (s := s.withDur x) hf hb
      cases first.symm.trans first'
      rw [accepted] at h
      cases h
      rw [accepted']
      obtain ⟨commutes, kept⟩ := s.dec.accepted_setDur i p x
      exact .of_settle (.of_kept commutes kept)
  | pinreq =>
    cases hp : s.pinAns with
    | none =>
      rw [exec_request_waits hf hp] at h
      cases h
      exact .of_kept (exec_request_waits (s := s.withDur x) hf hp) rfl
    | some r =>
      obtain ⟨a, ha, hd, rfl⟩ := exec_request_answered hf hp h
      rw [exec_answered (s := s.withDur x) hf ha hd]
      exact .of_settle (s.dec.answeredBy_agreesButDur hd s.cfg x)

theorem writeCmd_agreesButDur {v : Word} (h : writeCmd v s = .next t) (x : Word) :
    s.AgreesButDur x t (writeCmd v (s.withDur x)) := by
  obtain ⟨i, hd, hx⟩ | ⟨-, hb, rfl⟩ | ⟨illegal, hb, rfl⟩ := writeCmd_cases h
  · have fetched : writeCmd v (s.withDur x) = exec i (s.withDur x) := by simp only [writeCmd, hd]
    rw [fetched]
    exact exec_agreesButDur hx x
  · exact .of_kept (writeCmd_busy (s := s.withDur x) hb v) rfl
  · have hv : ¬ LegalCommand v := fun legal => by
      obtain ⟨i, hd⟩ := (exists_decodeCmd_ok_iff v).mpr legal
      exact illegal i hd
    exact .of_kept (writeCmd_idle_illegal (s := s.withDur x) hb hv) rfl

theorem writeRaw_agreesButDur {f : Frame} (h : writeRaw f s = .next t) (x : Word) :
    s.AgreesButDur x t (writeRaw f (s.withDur x)) := by
  cases hb : s.dec.busy with
  | true =>
    rw [writeRaw_busy hb] at h
    cases h
    exact .of_kept (writeRaw_busy (s := s.withDur x) hb f) rfl
  | false =>
    rw [writeRaw_idle hb] at h
    cases h
    exact .of_kept (writeRaw_idle (s := s.withDur x) hb f) rfl

theorem hostMove_agreesButDur {a : HostAccess} (h : hostMove a s = .next t) (hr : a ≠ .memRead 5 4) (x : Word) :
    s.AgreesButDur x t (hostMove a (s.withDur x)) := by
  obtain ⟨idx, rfl, hi, rfl⟩ | ⟨_, rfl, hw⟩ | ⟨_, rfl, hw⟩ | ⟨_, rfl, hw⟩ | ⟨idx, v, rfl, hi, h0, h6, h7, rfl⟩ :=
    hostMove_cases h
  · have other : idx ≠ 5 := fun h5 => hr (by rw [h5])
    refine .of_kept ?_ rfl
    rw [hostMove_memRead hi, State.withDur, readRegister_setDur other]
    rfl
  · exact writeCmd_agreesButDur hw x
  · exact writeRaw_agreesButDur hw x
  · exact writeRaw_agreesButDur hw x
  · refine .of_kept ?_ rfl
    rw [hostMove_memWrite hi, writeRegister_discarded h0 h6 h7]

theorem answerMove_agreesButDur {r : AnswerRec} (h : answerMove r s = .next t) (x : Word) :
    s.AgreesButDur x t (answerMove r (s.withDur x)) := by
  obtain ⟨hq, rfl⟩ | ⟨w, i, hq, hd, hx⟩ := answerMove_cases h
  · exact .of_kept (by simp only [answerMove, State.withDur, hq]) rfl
  · have fetched : answerMove r (s.withDur x) = exec i (State.withDur x { s with pinAns := some r }) := by
      simp only [answerMove, State.withDur, hq, hd]
    rw [fetched]
    exact exec_agreesButDur (s := { s with pinAns := some r }) hx x

/-- R196: the check step does not read it. -/
theorem internalStep_agreesButDur (s : State) (x : Word) :
    s.AgreesButDur x (internalStep s) (.next (internalStep (s.withDur x))) := by
  by_cases hp : s.dec.phase = .check
  · rw [internalStep_check hp, internalStep_check (s := s.withDur x) hp]
    obtain ⟨commutes, kept⟩ := s.dec.validate_setDur x
    exact .of_settle (.of_kept commutes kept)
  · rw [internalStep_other hp, internalStep_other (s := s.withDur x) hp]
    exact .of_kept rfl rfl

end Moves

/-- Settles O47: by the moves, of which only the host's read of `DUR` reads it. -/
theorem durationCopyIsNeverUsed : Obligations.DurationCopyIsNeverUsed := by
  intro s t x h hr
  have hl := legal_of_step h
  change s.AgreesButDur x t (step (s.withDur x))
  rw [step_legal hl] at h
  rw [step_legal (s := s.withDur x) hl]
  cases hs : s.script with
  | nil =>
    rw [nextMove_nil hs] at h
    cases h
    rw [nextMove_nil (s := s.withDur x) hs]
    exact internalStep_agreesButDur s x
  | cons m rest =>
    rw [nextMove_cons hs] at h
    rw [nextMove_cons (s := s.withDur x) hs]
    cases m with
    | host a => exact hostMove_agreesButDur h (fun ha => hr rest (by rw [hs, ha])) x
    | answer r => exact answerMove_agreesButDur h x
    | internal =>
      cases h
      exact internalStep_agreesButDur { s with script := rest } x
    | reset =>
      cases h
      exact ⟨Decoder.reset.dur, rfl, .inr rfl⟩

end Sys2Proof.Machine


/-! SUPPORT. Whole commands (R140 to R146, R180, R190 to R193): one answered step with the word it takes off the port, the
sequences that the commands share, and the runs. -/

namespace Sys2Proof.Machine

/-! ## Runs with the words they issue -/

/-- `n` steps lead from `s` to `t` and take the answers of the requests `ws`. -/
structure RunsWords (n : Nat) (ws : List Word) (s t : State) : Prop where
  run : runs n s = .next t
  words : issued n s = ws

theorem RunsWords.trans {n n' : Nat} {ws ws' : List Word} {s t u : State} (h : RunsWords n ws s t)
    (h' : RunsWords n' ws' t u) : RunsWords (n + n') (ws ++ ws') s u where
  run := (runs_add h.run n').trans h'.run
  words := by rw [issued_add h.run, h.words, h'.words]

theorem RunsWords.issuing {n : Nat} {ws : List Word} {s t : State} (h : RunsWords n ws s t) :
    RunsIssuing n ws.length s t :=
  ⟨h.run, congrArg _ h.words⟩

theorem RunsWords.host {s t : State} {a : HostAccess} {rest : List Move} (hs : s.script = .host a :: rest)
    (h : step s = .next t) : RunsWords 1 [] s t where
  run := runs_of_step h 0
  words := by simp [issued, hs, h]

/-- R121, R196: the step of the own request of the record `d`, after which the record is `d'`. -/
theorem step_awaiting_answered {s : State} {d d' : Decoder} {i : Instr} {a : Answer} (hl : s.cfg.legal = true)
    (hr : requestOf s.cfg d = some i) (ha : inDomain i a = true) (hd : (d.ownEffect i a).goOn s.cfg a = d')
    (ms : List Move) : step (s.awaiting (.answer (encodeAnswer a) :: ms) d) = .next (s.awaiting ms d') := by
  rw [← hd]
  exact (step_awaiting hl hr _ ms).trans
    (exec_own (s := { s.awaiting ms d with pinAns := some (encodeAnswer a) }) hr (requestOf_wf hl hr).1 rfl ha)

theorem RunsWords.answered {s : State} {d d' : Decoder} {i : Instr} {a : Answer} (hl : s.cfg.legal = true)
    (hr : requestOf s.cfg d = some i) (ha : inDomain i a = true) (hd : (d.ownEffect i a).goOn s.cfg a = d')
    (ms : List Move) :
    RunsWords 1 [encode i] (s.awaiting (.answer (encodeAnswer a) :: ms) d) (s.awaiting ms d') := by
  have own := step_awaiting_answered hl hr ha hd ms
  exact ⟨runs_of_step own 0, by simp [issued, hr, own]⟩

/-- The internal move takes no request's answer. -/
theorem RunsIssuing.internal {s t : State} {rest : List Move} (hs : s.script = .internal :: rest)
    (h : step s = .next t) : RunsIssuing 1 0 s t where
  run := runs_of_step h 0
  count := by simp [issued, hs, h]

/-! ## The sequences that commands share -/

theorem format_of_firstPhase {i : Instr} {p : Phase} (h : firstPhase i = some p) : i.format = .cmd := by
  cases i with
  | read | beginTxn | ackchk | sample | validate | waitl | idle => rfl
  | setLevel | setDirection | readLevel | waitForLevel | delay => cases h

/-- R194: a command's word is written to an idle block. -/
theorem RunsWords.accepted {s : State} {i : Instr} {p : Phase} {ms : List Move} (hl : s.cfg.legal = true)
    (hb : s.dec.busy = false) (first : firstPhase i = some p) (hw : i.wf = true)
    (hs : s.script = .host (.memWrite 0 4 (encode i)) :: ms) : RunsWords 1 [] s (s.awaiting ms (s.dec.accepted i p)) := by
  have hf := format_of_firstPhase first
  obtain ⟨p', first', accepted⟩ := exec_command_idle (s := { s with script := ms }) hf hb
  cases first.symm.trans first'
  exact .host hs ((step_command hl (decode_encode_command hf hw) hs).trans accepted)

/-- R141: the first request of the start signal, answered `Ok`. -/
theorem Decoder.goOn_bDirOut {d : Decoder} (hp : d.phase = .bDirOut) (cfg : Config) :
    (d.ownEffect (.setDirection .output) .ok).goOn cfg .ok = (d.setPdir .output).goto .bLow := by
  simp only [Decoder.ownEffect, Decoder.goOn, Decoder.afterOk, Decoder.setPdir_phase, hp]

/-- R141: the record after the start signal. -/
def Decoder.signalled (d : Decoder) : Decoder := { d with pdir := .input, plvl := .high, phase := .ackStart }

/-- R141: the start signal, with its five requests answered `Ok`. -/
theorem RunsWords.start_signal {s : State} {d : Decoder} (hl : s.cfg.legal = true) (hp : d.phase = .bDirOut)
    (ms : List Move) :
    RunsWords 5 [0x00000009#32, 0x00000000#32, encode (.delay s.cfg.holdUs), 0x00000008#32, 0x00000001#32]
      (s.awaiting (answers [.ok, .ok, .ok, .ok, .ok] ++ ms) d) (s.awaiting ms d.signalled) := by
  exact ((((RunsWords.answered hl (by simp [requestOf, hp]) rfl (Decoder.goOn_bDirOut hp s.cfg) _).trans
    (.answered (i := .setLevel .low) (a := .ok) hl rfl rfl rfl _)).trans
    (.answered (i := .delay s.cfg.holdUs) (a := .ok) hl rfl rfl rfl _)).trans
    (.answered (i := .setLevel .high) (a := .ok) hl rfl rfl rfl _)).trans
    (.answered (i := .setDirection .input) (a := .ok) hl rfl rfl rfl ms)

/-- R124, R196: the step of a phase's own wait, answered with a duration. -/
theorem RunsWords.waited {s : State} {d d' : Decoder} {l : Level} {t : Nat} {w : Word} (hl : s.cfg.legal = true)
    (hr : requestOf s.cfg d = some (.waitForLevel l t)) (hd : (d.setDur w).afterOkDur s.cfg w = d') (ms : List Move) :
    RunsWords 1 [encode (.waitForLevel l t)] (s.awaiting (.answer (encodeAnswer (.okDur w)) :: ms) d)
      (s.awaiting ms d') :=
  .answered (a := .okDur w) hl hr rfl hd ms

theorem Decoder.afterOkDur_ackStart {d : Decoder} (hp : d.phase = .ackStart) (cfg : Config) (w : Word) :
    d.afterOkDur cfg w = d.afterAckStart := by
  simp only [Decoder.afterOkDur, hp]

theorem Decoder.afterOkDur_ackLow {d : Decoder} (hp : d.phase = .ackLow) (cfg : Config) (w : Word) :
    d.afterOkDur cfg w = d.afterAckLow cfg w := by
  simp only [Decoder.afterOkDur, hp]

theorem Decoder.afterOkDur_ackHigh {d : Decoder} (hp : d.phase = .ackHigh) (cfg : Config) (w : Word) :
    d.afterOkDur cfg w = d.afterAckHigh cfg w := by
  simp only [Decoder.afterOkDur, hp]

/-- R196(3): the check step of the record `d`. -/
theorem step_awaiting_check {s : State} {d : Decoder} (hl : s.cfg.legal = true) (hp : d.phase = .check)
    (ms : List Move) : step (s.awaiting (.internal :: ms) d) = .next (s.awaiting ms d.validate) :=
  step_internal_check (s := s.awaiting (.internal :: ms) d) hl hp rfl

/-! ## `BEGIN` -/

/-- Settles O48: acceptance, the start signal, and the wait for the acknowledgment. -/
theorem beginRunsToCompletion : Obligations.BeginRunsToCompletion := by
  intro s w rest hl hb hs
  let d := s.dec.accept (encode .beginTxn) .bDirOut
  have notRead : d.op ≠ opRead := (by decide : cmdOp (encode .beginTxn) ≠ opRead)
  have ended : (d.signalled.setDur w).afterOkDur s.cfg w = (d.signalled.setDur w).finishOk :=
    (Decoder.afterOkDur_ackStart rfl s.cfg w).trans (Decoder.afterAckStart_other notRead)
  have whole := ((RunsWords.accepted (i := .beginTxn) hl hb rfl rfl hs).trans
    (.start_signal hl rfl (.answer (encodeAnswer (.okDur w)) :: rest))).trans (.waited hl rfl ended rest)
  exact ⟨whole.run, whole.words⟩

/-! ## The short commands -/

/-- R143: `WAITL` with its wait answered. -/
theorem RunsWords.waitl {s : State} {l : Level} {t : Nat} {w : Word} {rest : List Move} (hl : s.cfg.legal = true)
    (hb : s.dec.busy = false) (ht : t ≤ 2 ^ 24 - 1)
    (hs : s.script = .host (.memWrite 0 4 (encode (.waitl l t))) :: (answers [.okDur w] ++ rest)) :
    RunsWords 2 [encode (.waitForLevel l t)] s
      (s.awaiting rest ((s.dec.accept (encode (.waitl l t)) .waitL).setDur w).finishOk) := by
  have own : requestOf s.cfg (s.dec.accept (encode (.waitl l t)) .waitL) = some (.waitForLevel l t) := by
    simp only [requestOf, Decoder.accept_waitl, toNat_time ht]
  have fits : (Instr.waitl l t).wf = true := decide_eq_true ht
  exact (RunsWords.accepted hl hb rfl fits hs).trans (.waited hl own rfl rest)

/-- R143, R145, R146: the acknowledgment check of `ACKCHK`, with both durations in their band. -/
theorem RunsWords.ackchk {s : State} {w1 w2 : Word} {rest : List Move} (hl : s.cfg.legal = true)
    (hb : s.dec.busy = false) (h1 : ackOk s.cfg w1 = true) (h2 : ackOk s.cfg w2 = true)
    (hs : s.script = .host (.memWrite 0 4 (encode .ackchk)) :: (answers [.okDur w1, .okDur w2] ++ rest)) :
    RunsWords 3 [encode (.waitForLevel .high s.cfg.tAckPhase), encode (.waitForLevel .low s.cfg.tAckPhase)] s
      (s.awaiting rest (((s.dec.accept (encode .ackchk) .ackLow).goto .ackHigh).setDur w2).finishOk) := by
  let d := s.dec.accept (encode .ackchk) .ackLow
  have notRead : d.op ≠ opRead := (by decide : cmdOp (encode .ackchk) ≠ opRead)
  have low : (d.setDur w1).afterOkDur s.cfg w1 = (d.setDur w1).goto .ackHigh :=
    (Decoder.afterOkDur_ackLow rfl s.cfg w1).trans (Decoder.afterAckLow_inBand h1 _)
  have high : (((d.setDur w1).goto .ackHigh).setDur w2).afterOkDur s.cfg w2 = ((d.goto .ackHigh).setDur w2).finishOk :=
    (Decoder.afterOkDur_ackHigh rfl s.cfg w2).trans (Decoder.afterAckHigh_other h2 notRead)
  exact ((RunsWords.accepted hl hb rfl rfl hs).trans
    (.waited hl rfl low (answers [.okDur w2] ++ rest))).trans (.waited hl rfl high rest)

/-- Settles O49: each command is accepted and goes through its own requests, or through the check step. -/
theorem shortCommandsRunToCompletion : Obligations.ShortCommandsRunToCompletion := by
  intro s rest hl hb finished
  refine ⟨fun l t w ht hs => ?waitl, fun w1 w2 h1 h2 hs => ?ackchk, fun passes hs => ?validate, fun hs => ?idle⟩
  case waitl =>
    have whole := (RunsWords.waitl hl hb ht hs).run
    rw [Decoder.accept_waitl] at whole
    exact whole
  case ackchk => exact (RunsWords.ackchk hl hb h1 h2 hs).run
  case validate =>
    let d := s.dec.accept (encode .validate) .check
    have accepted := RunsWords.accepted (i := .validate) hl hb rfl rfl hs
    have checked := step_awaiting_check (s := s) (d := d) hl rfl rest
    rw [Decoder.validate_passed (d := d) passes] at checked
    exact (runs_add accepted.run 1).trans (runs_of_step checked 0)
  case idle =>
    let d := s.dec.accept (encode .idle) .idleDir
    exact (((RunsWords.accepted (i := .idle) hl hb rfl rfl hs).trans
      (.answered (i := .setDirection .output) (a := .ok) (d' := (d.setPdir .output).goto .idleLvl) hl rfl rfl rfl
        (answers [.ok] ++ rest))).trans
      (.answered (i := .setLevel .high) (a := .ok) hl rfl rfl rfl rest)).run

/-! ## `READ` -/

/-- R160: the record after the acknowledgment is at the start of bit 0 of any frame. -/
theorem sampling_of_clearRaw (d : Decoder) (f : Frame) : (d.clearRaw.goto .bitLow).Sampling f 0 :=
  ⟨rfl, rfl, (frameUpTo_zero f).symm⟩

/-- R191: the record of `READ` in phase `CHECK`, with the frame `f` sampled and `w` the last duration. -/
def Decoder.readToCheck (f : Frame) (w : Word) (d : Decoder) : Decoder :=
  { d with pdir := .input, plvl := .high, raw := f, bitidx := 40#6, dur := w, phase := .check }

/-- R190, R191: `READ` from its first phase to the check, with answers that carry the frame `f`. -/
theorem RunsIssuing.read_to_check {s : State} {d : Decoder} {f : Frame} {w0 w1 w2 : Word} {ds : List (Word × Word)}
    {last : Word × Word} (hl : s.cfg.legal = true) (hp : d.phase = .bDirOut) (isRead : d.op = opRead)
    (h1 : ackOk s.cfg w1 = true) (h2 : ackOk s.cfg w2 = true) (hc : carries s.cfg f ds) (hlast : ds[39]? = some last)
    (ms : List Move) :
    RunsIssuing 88 88
      (s.awaiting (answers ([.ok, .ok, .ok, .ok, .ok, .okDur w0, .okDur w1, .okDur w2] ++ bitAnswers ds) ++ ms) d)
      (s.awaiting ms (d.readToCheck f last.2)) := by
  let d0 := (d.signalled.setDur w0).goto .ackLow
  let d1 := (d0.setDur w1).goto .ackHigh
  let d2 := (d1.setDur w2).clearRaw.goto .bitLow
  have start : (d.signalled.setDur w0).afterOkDur s.cfg w0 = d0 :=
    (Decoder.afterOkDur_ackStart rfl s.cfg w0).trans (Decoder.afterAckStart_read isRead)
  have low : (d0.setDur w1).afterOkDur s.cfg w1 = d1 :=
    (Decoder.afterOkDur_ackLow rfl s.cfg w1).trans (Decoder.afterAckLow_inBand h1 _)
  have high : (d1.setDur w2).afterOkDur s.cfg w2 = d2 :=
    (Decoder.afterOkDur_ackHigh rfl s.cfg w2).trans (Decoder.afterAckHigh_read h2 isRead)
  have check : d2.sampled f last.2 = d.readToCheck f last.2 := if_pos isRead
  have acknowledged := (((RunsWords.start_signal hl hp _).trans (.waited hl rfl start _)).trans
    (.waited hl rfl low _)).trans (.waited hl rfl high (answers (bitAnswers ds) ++ ms))
  rw [← check]
  exact acknowledged.issuing.trans (.sample_bits hl (sampling_of_clearRaw _ f) hc hlast ms)

/-- R180, R181: the check of a frame, in numbers. -/
theorem frameSum_eq_iff (f : Frame) :
    frameSum f = f[4] ↔ (f[0].toNat + f[1].toNat + f[2].toNat + f[3].toNat) % 256 = f[4].toNat := by
  rw [← toNat_frameSum, BitVec.toNat_inj]

/-- Settles O51: acceptance, the way to the check, and the two outcomes of the check step. -/
theorem readDeliversTheFrameOrTheMismatch : Obligations.ReadDeliversTheFrameOrTheMismatch := by
  intro s f w0 w1 w2 ds last rest hl hb h1 h2 hc hlast hs sum sampled
  let d := (s.dec.accept (encode .read) .bDirOut).readToCheck f last.2
  have accepted := RunsWords.accepted (i := .read) hl hb rfl rfl hs
  have toCheck := RunsIssuing.read_to_check (d := s.dec.accept (encode .read) .bDirOut) (w0 := w0) hl rfl
    (by decide : cmdOp (encode .read) = opRead) h1 h2 hc hlast (.internal :: rest)
  have whole := (accepted.issuing.trans toCheck).trans (.internal rfl (step_awaiting_check (s := s) (d := d) hl rfl rest))
  refine ⟨fun passed => ?passed, fun failed => ?failed, whole.count⟩
  case passed =>
    have run := whole.run
    rw [Decoder.validate_passed (d := d) ((frameSum_eq_iff f).mpr passed)] at run
    exact run
  case failed =>
    have run := whole.run
    have computed : BitVec.ofNat 8 sum = frameSum f := by
      rw [← BitVec.setWidth_eq (frameSum f), ← BitVec.ofNat_toNat, toNat_frameSum]
    rw [Decoder.validate_failed (d := d) (mt (frameSum_eq_iff f).mp failed)] at run
    rw [computed]
    exact run

end Sys2Proof.Machine


/-! SUPPORT. Termination (R132, R195): the moves left until a command ends, which every answer of the domain and the check step
make fewer. -/

namespace Sys2Proof.Machine

/-- R197: the most moves that a command in the record `d` can still take: 89 from the first phase of `READ`, two for each bit,
and one for the check. -/
def Decoder.movesLeft (d : Decoder) : Nat :=
  match d.phase with
  | .idle => 0
  | .bDirOut => 89
  | .bLow => 88
  | .bHold => 87
  | .bHigh => 86
  | .bDirIn => 85
  | .ackStart => 84
  | .ackLow => 83
  | .ackHigh => 82
  | .bitLow => 2 * (40 - d.bitidx.toNat) + 1
  | .bitHigh => 2 * (40 - d.bitidx.toNat)
  | .check => 1
  | .waitL => 1
  | .idleDir => 2
  | .idleLvl => 1

theorem Decoder.movesLeft_le (d : Decoder) : d.movesLeft ≤ 89 := by
  unfold Decoder.movesLeft
  split <;> omega

/-- A command in flight has a move left. -/
theorem Decoder.Consistent.movesLeft_pos {d : Decoder} (h : d.Consistent) (running : d.phase ≠ .idle) :
    0 < d.movesLeft := by
  cases hp : d.phase with
  | idle => exact absurd hp running
  | bitHigh =>
    have index := h.sampling_lt (.inr hp)
    simp only [Decoder.movesLeft, hp]
    omega
  | _ => simp [Decoder.movesLeft, hp]

/-- R211, R212: the command has ended. -/
def Decoder.Ended (d : Decoder) : Prop := d.busy = false ∧ d.done = true

theorem Decoder.validate_ended (d : Decoder) : d.validate.Ended := by
  unfold Decoder.validate
  split <;> exact ⟨rfl, rfl⟩

/-- R105, R197: the next phase of a sequence in which no frame is begun and no bit accepted has fewer moves left. -/
theorem Decoder.movesLeft_goto_lt {d : Decoder} {q : Phase} (follows : phaseFollows d.phase q = true) (noBit : q ≠ .bitLow)
    (lt : d.phase = .bitLow ∨ d.phase = .bitHigh → d.bitidx.toNat < 40) : (d.goto q).movesLeft < d.movesLeft := by
  unfold phaseFollows at follows
  split at follows
  -- the two rows of the table into `BIT_LOW`, and the pairs of phases that are no row
  case h_8 | h_10 => exact absurd rfl noBit
  case h_13 => cases follows
  all_goals
    rename_i hp
    simp [Decoder.movesLeft, hp] at lt ⊢
  all_goals omega

/-- R195, R197: the sequel of an answered request is the end, or it has fewer moves left. -/
theorem Decoder.Continues.progress {d d' : Decoder} (h : d.Continues d')
    (lt : d.phase = .bitLow ∨ d.phase = .bitHigh → d.bitidx.toNat < 40) :
    d'.Ended ∨ (d'.busy = d.busy ∧ d'.movesLeft < d.movesLeft) := by
  cases h with
  | goesOn q follows _ noBit => exact .inr ⟨rfl, Decoder.movesLeft_goto_lt follows noBit lt⟩
  | samplingBegun high => exact .inr ⟨rfl, by simp [Decoder.movesLeft, high]⟩
  | bitAccepted c high more =>
    refine .inr ⟨rfl, ?_⟩
    simp only [Decoder.movesLeft, Decoder.goto_phase, Decoder.goto_bitidx, Decoder.shiftRaw_bitidx, high,
      toNat_index_succ more]
    omega
  | frameRead c high =>
    have index := lt (.inr high)
    refine .inr ⟨rfl, ?_⟩
    simp only [Decoder.movesLeft, Decoder.goto_phase, high]
    omega
  | frameSampled | finished | failed => exact .inl ⟨rfl, rfl⟩

theorem Decoder.ownEffect_movesLeft (i : Instr) (a : Answer) (d : Decoder) :
    (d.ownEffect i a).movesLeft = d.movesLeft ∧ (d.ownEffect i a).busy = d.busy ∧
      (d.ownEffect i a).bitidx = d.bitidx := by
  unfold Decoder.ownEffect
  split <;> exact ⟨rfl, rfl, rfl⟩

/-- R104: a command in flight without an own request is in the check. -/
theorem phase_check_of_requestOf {cfg : Config} {d : Decoder} (h : requestOf cfg d = none) (running : d.phase ≠ .idle) :
    d.phase = .check := by
  cases hp : d.phase with
  | check => rfl
  | idle => exact absurd hp running
  | _ => simp [requestOf, hp] at h

theorem State.Inv.of_script {s : State} (inv : s.Inv) (ms : List Move) : ({ s with script := ms } : State).Inv :=
  ⟨inv.cfg_legal, inv.consistent, inv.no_answer, inv.own_request⟩

/-- R180, R196: the check step ends the command. -/
theorem step_internal_ended {s : State} (inv : s.Inv) (hr : requestOf s.cfg s.dec = none) (hb : s.dec.busy = true) :
    ∃ t, step { s with script := [.internal] } = .next t ∧ t.dec.Ended := by
  have check := phase_check_of_requestOf hr (inv.consistent.busy_iff.mp hb)
  exact ⟨_, step_internal_check (s := { s with script := [.internal] }) inv.cfg_legal check rfl, s.dec.validate_ended⟩

/-- R121, R196: the answer to the own request ends the command or brings its end nearer. -/
theorem step_answer_progress {s : State} {i : Instr} {a : Answer} (inv : s.Inv) (hr : requestOf s.cfg s.dec = some i)
    (ha : inDomain i a = true) :
    ∃ t, step { s with script := [.answer (encodeAnswer a)] } = .next t ∧
      (t.dec.Ended ∨ (t.dec.busy = s.dec.busy ∧ t.dec.movesLeft < s.dec.movesLeft)) := by
  obtain ⟨hf, hw⟩ := requestOf_wf inv.cfg_legal hr
  have outstanding : s.pinReq = some (encode i) := by rw [inv.own_request, hr, Option.map_some]
  have fetched := step_answer (s := { s with script := [.answer (encodeAnswer a)] }) inv.cfg_legal rfl outstanding
    (decode_encode_request hf hw)
  have executed := exec_answered (s := { s with script := [], pinAns := some (encodeAnswer a) }) hf rfl ha
  refine ⟨_, fetched.trans executed, ?_⟩
  obtain ⟨movesLeft, busy, bitidx⟩ := s.dec.ownEffect_movesLeft i a
  have progress := (s.dec.answeredBy_continues hr ha).progress (by
    rw [Decoder.ownEffect_phase, bitidx]
    exact inv.consistent.sampling_lt)
  rw [movesLeft, busy] at progress
  exact progress

/-- R132, R196: one move of an environment that answers, and of the decoder, ends the command or brings its end nearer. -/
theorem answeredMove_progress {env : Nat → Instr → Answer} {s : State}
    (henv : ∀ k i, i.format = .pinreq → inDomain i (env k i) = true) (inv : s.Inv) (hb : s.dec.busy = true) (k : Nat) :
    ∃ t, step { s with script := [answeredMove env k s] } = .next t ∧
      (t.dec.Ended ∨ (t.dec.busy = true ∧ t.dec.movesLeft < s.dec.movesLeft)) := by
  cases hr : requestOf s.cfg s.dec with
  | none =>
    have move : answeredMove env k s = .internal := by simp only [answeredMove, inv.own_request, hr, Option.map_none]
    rw [move]
    obtain ⟨t, ht, ended⟩ := step_internal_ended inv hr hb
    exact ⟨t, ht, .inl ended⟩
  | some i =>
    obtain ⟨hf, hw⟩ := requestOf_wf inv.cfg_legal hr
    have move : answeredMove env k s = .answer (encodeAnswer (env k i)) := by
      simp only [answeredMove, inv.own_request, hr, Option.map_some, decode_encode_request hf hw]
    rw [move, ← hb]
    exact step_answer_progress inv hr (henv k i hf)

/-- R195: a command in flight with at most `m` moves left ends within `m` moves. -/
theorem answeredRun_ends {env : Nat → Instr → Answer}
    (henv : ∀ k i, i.format = .pinreq → inDomain i (env k i) = true) (m : Nat) {s : State} (inv : s.Inv)
    (hb : s.dec.busy = true) (hm : s.dec.movesLeft ≤ m) (k : Nat) :
    ∃ n t, n ≤ m ∧ answeredRun env n k s = .next t ∧ t.dec.Ended := by
  induction m generalizing s k with
  | zero =>
    have left := inv.consistent.movesLeft_pos (inv.consistent.busy_iff.mp hb)
    omega
  | succ m ih =>
    obtain ⟨t, ht, outcome⟩ := answeredMove_progress henv inv hb k
    have first : ∀ n, answeredRun env (n + 1) k s = answeredRun env n (k + 1) t := fun n => by simp only [answeredRun, ht]
    obtain ended | ⟨running, fewer⟩ := outcome
    · exact ⟨1, t, by omega, first 0, ended⟩
    · have inv' := everyStepKeepsTheInvariant _ t (inv.of_script _) ht
      obtain ⟨n, u, hn, hu, ended⟩ := ih inv' running (by omega) (k + 1)
      exact ⟨n + 1, u, by omega, (first n).trans hu, ended⟩

/-- Settles O53: no record has more than 89 moves left. -/
theorem answeredCommandEnds : Obligations.AnsweredCommandEnds := by
  intro env s henv inv hb
  obtain ⟨n, t, hn, run, busy, done⟩ := answeredRun_ends henv 89 inv hb s.dec.movesLeft_le 0
  exact ⟨n, t, hn, run, busy, done⟩

end Sys2Proof.Machine


/-! SUPPORT. `READ` on the reference train (R133, R134): what the ideal environment answers where a segment of the train begins,
and the run of `READ` with these answers. -/

namespace Sys2Proof.Machine

/-! ## The waveform from a segment on -/

/-- R133: a segment of another level, or one that is past, is not what the search finds. -/
theorem Waveform.seek_skip {l l1 : Level} {n start tau : Nat} (h : l1 ≠ l ∨ start + n ≤ tau) (x : Level × Nat)
    (rest : Waveform) : Waveform.seek l ((l1, n) :: x :: rest) start tau = Waveform.seek l (x :: rest) (start + n) tau := by
  rw [Waveform.seek, if_neg]
  · rintro ⟨same, inside⟩
    obtain other | past := h
    · exact other same
    · omega
  · exact List.cons_ne_nil x rest

/-- R133: a segment of the level that lies ahead is found at its start. -/
theorem Waveform.seek_here {l : Level} {n start tau : Nat} (h : tau ≤ start) (hn : 0 < n) (x : Level × Nat)
    (rest : Waveform) : Waveform.seek l ((l, n) :: x :: rest) start tau = some start := by
  rw [Waveform.seek, if_pos ⟨rfl, by omega⟩, Nat.max_eq_left h]
  exact List.cons_ne_nil x rest

/-- From time `start` on the waveform `w` is `v`, which begins then. -/
def Waveform.From (w : Waveform) (start : Nat) (v : Waveform) : Prop :=
  ∀ l tau, start ≤ tau → w.seek l 0 tau = v.seek l start tau

theorem Waveform.From.skip {w rest : Waveform} {start n : Nat} {l1 : Level} {x : Level × Nat}
    (h : w.From start ((l1, n) :: x :: rest)) : w.From (start + n) (x :: rest) := fun l tau ht => by
  rw [h l tau (by omega), Waveform.seek_skip (.inr ht)]

/-- R133: at the start of a segment of the other level, the next level is seen when the segment ends. -/
theorem idealAnswer_next {w rest : Waveform} {l l1 : Level} {n n' start t : Nat} {x : Level × Nat}
    (h : w.From start ((l1, n) :: (l, n') :: x :: rest)) (other : l1 ≠ l) (hn : 0 < n') (ht : n ≤ t) :
    idealAnswer w start (.waitForLevel l t) = (.okDur (BitVec.ofNat 32 n), start + n) := by
  have found : w.seek l 0 start = some (start + n) := by
    rw [h l start (Nat.le_refl _), Waveform.seek_skip (.inl other), Waveform.seek_here (by omega) hn]
  simp only [idealAnswer, found, Nat.add_sub_cancel_left, ht, if_true]

/-- R134: the train from bit i on, with `n` bits left. -/
def trainFrom (f : Frame) : Nat → Nat → Waveform
  | _, 0 => [(.low, 50), (.high, 0)]
  | i, n + 1 => (.low, 50) :: (.high, refHigh (frameBit f i)) :: trainFrom f (i + 1) n

theorem trainFrom_eq (f : Frame) (i n : Nat) :
    (List.range' i n).flatMap (fun j => [(Level.low, 50), (Level.high, refHigh (frameBit f j))]) ++
      [(.low, 50), (.high, 0)] = trainFrom f i n := by
  induction n generalizing i with
  | zero => rfl
  | succ n ih =>
    rw [List.range'_succ, List.flatMap_cons, List.append_assoc, ih]
    rfl

/-- R134: the answer pulse, and the train from bit 0 on. -/
theorem refTrain_eq (f : Frame) : refTrain f = (.high, 30) :: (.low, 80) :: (.high, 80) :: trainFrom f 0 40 := by
  rw [← trainFrom_eq, ← List.range_eq_range']
  rfl

/-- A bit's low phase, or the trailer, comes first. -/
theorem trainFrom_cons (f : Frame) (i n : Nat) : ∃ x rest, trainFrom f i n = (.low, 50) :: x :: rest := by
  cases n with
  | zero => exact ⟨_, _, rfl⟩
  | succ n => exact ⟨_, _, rfl⟩

/-! ## Moves of the ideal environment -/

theorem legal_of_default {cfg : Config} (h : cfg = Config.default) : cfg.legal = true := by
  rw [h]
  decide

/-- One move of the ideal environment and the decoder, and the run after it. -/
theorem idealRun_move {w : Waveform} {tau tau' : Nat} {s t : State} {m : Move} (hm : idealMove w tau s = (m, tau'))
    (hs : step { s with script := [m] } = .next t) (n : Nat) : idealRun w (n + 1) tau s = idealRun w n tau' t := by
  simp only [idealRun, hm, hs]

/-- The answer of the ideal environment to the own request of the record `d`, after which the record is `d'`. -/
theorem idealRun_answered {w : Waveform} {tau tau' : Nat} {s : State} {d d' : Decoder} {i : Instr} {a : Answer}
    (hl : s.cfg.legal = true) (hr : requestOf s.cfg d = some i) (hw : idealAnswer w tau i = (a, tau'))
    (ha : inDomain i a = true) (hd : (d.ownEffect i a).goOn s.cfg a = d') (ms : List Move) (n : Nat) :
    idealRun w (n + 1) tau (s.awaiting ms d) = idealRun w n tau' (s.awaiting [] d') := by
  obtain ⟨hf, hwf⟩ := requestOf_wf hl hr
  refine idealRun_move (m := .answer (encodeAnswer a)) ?_ (step_awaiting_answered hl hr ha hd []) n
  simp only [idealMove, State.awaiting_pinReq, hr, Option.map_some, decode_encode_request hf hwf, hw]

/-- R133: a request that is no wait and no read is answered `Ok` at once. -/
theorem idealRun_ok {w : Waveform} {tau : Nat} {s : State} {d d' : Decoder} {i : Instr} (hl : s.cfg.legal = true)
    (hr : requestOf s.cfg d = some i) (ha : inDomain i .ok = true) (hd : (d.ownEffect i .ok).goOn s.cfg .ok = d')
    (ms : List Move) (n : Nat) :
    idealRun w (n + 1) tau (s.awaiting ms d) = idealRun w n tau (s.awaiting [] d') := by
  refine idealRun_answered hl hr ?_ ha hd ms n
  cases i with
  | waitForLevel | readLevel => cases ha
  | _ => rfl

/-- The wait for the next level, at the start of a segment of the other one. -/
theorem idealRun_wait {w rest : Waveform} {s : State} {d d' : Decoder} {l l1 : Level} {n n' start t : Nat}
    {x : Level × Nat} (hl : s.cfg.legal = true) (hr : requestOf s.cfg d = some (.waitForLevel l t))
    (h : w.From start ((l1, n) :: (l, n') :: x :: rest)) (other : l1 ≠ l) (hn : 0 < n') (ht : n ≤ t)
    (hd : (d.setDur (BitVec.ofNat 32 n)).afterOkDur s.cfg (BitVec.ofNat 32 n) = d') (ms : List Move) (m : Nat) :
    idealRun w (m + 1) start (s.awaiting ms d) = idealRun w m (start + n) (s.awaiting [] d') :=
  idealRun_answered hl hr (idealAnswer_next h other hn ht) rfl hd ms m

/-! ## The bits of the train -/

/-- R134, R161: the default bands classify the train's high phases as its bits, and no wait for them times out. -/
theorem classify_refHigh (c : Bit) : classify Config.default (BitVec.ofNat 32 (refHigh c)) = some c := by
  cases c <;> decide

theorem refHigh_bounds (c : Bit) : 0 < refHigh c ∧ refHigh c ≤ 100 := by
  cases c <;> decide

section Train

variable {s : State} {f : Frame} {w : Waveform}

/-- The two moves of a bit of the train. -/
theorem idealRun_bit {d : Decoder} {i n start : Nat} (hcfg : s.cfg = Config.default) (hp : d.phase = .bitLow)
    (h : w.From start (trainFrom f i (n + 1))) (ms : List Move) (m : Nat) :
    ∃ start' u, idealRun w (m + 2) start (s.awaiting ms d) =
        idealRun w m start' (s.awaiting [] ((d.setDur u).acceptBit (frameBit f i))) ∧
      w.From start' (trainFrom f (i + 1) n) := by
  have hl := legal_of_default hcfg
  obtain ⟨x, rest, hx⟩ := trainFrom_cons f (i + 1) n
  obtain ⟨pos, le⟩ := refHigh_bounds (frameBit f i)
  rw [trainFrom, hx] at h
  let u := BitVec.ofNat 32 (refHigh (frameBit f i))
  let d1 := (d.setDur (BitVec.ofNat 32 50)).goto .bitHigh
  have low : (d.setDur (BitVec.ofNat 32 50)).afterOkDur s.cfg (BitVec.ofNat 32 50) = d1 := by
    simp only [Decoder.afterOkDur, Decoder.setDur_phase, hp, d1]
  have high : (d1.setDur u).afterOkDur s.cfg u = (d.setDur u).acceptBit (frameBit f i) := by
    simp only [Decoder.afterOkDur, Decoder.setDur_phase, Decoder.goto_phase, d1, Decoder.afterBitHigh, hcfg,
      classify_refHigh, u]
    rfl
  refine ⟨start + 50 + refHigh (frameBit f i), u, ?_, hx ▸ h.skip.skip⟩
  rw [idealRun_wait (l := .high) (t := s.cfg.tBitLow) hl (by simp [requestOf, hp]) h (by decide) pos (by rw [hcfg]; decide)
      low ms (m + 1),
    idealRun_wait (l := .low) (t := s.cfg.tBitHigh) hl rfl h.skip (by decide) (by decide) (by rw [hcfg]; exact le) high [] m]

/-- R160: the moves of all bits of the train that are left. -/
theorem idealRun_sample_from {d : Decoder} {i n start : Nat} (hcfg : s.cfg = Config.default) (hd : d.Sampling f i)
    (hn : i + n = 39) (h : w.From start (trainFrom f i (n + 1))) (ms : List Move) (m : Nat) :
    ∃ start' u, idealRun w (m + 2 * (n + 1)) start (s.awaiting ms d) =
      idealRun w m start' (s.awaiting [] (d.sampled f u)) := by
  induction n generalizing i d start ms with
  | zero =>
    obtain rfl : i = 39 := hn
    obtain ⟨start', u, run, -⟩ := idealRun_bit hcfg hd.phase h ms m
    have hd' : (d.setDur u).Sampling f 39 := ⟨hd.phase, hd.index, hd.raw⟩
    rw [hd'.acceptBit_last] at run
    exact ⟨start', u, run⟩
  | succ n ih =>
    obtain ⟨start', u, run, h'⟩ := idealRun_bit hcfg hd.phase h ms (m + 2 * (n + 1))
    have hd' : (d.setDur u).Sampling f i := ⟨hd.phase, hd.index, hd.raw⟩
    obtain ⟨start'', u', rest⟩ := ih (hd'.acceptBit (by omega)) (by omega) h' []
    rw [Decoder.sampled_acceptBit hd' (by omega)] at rest
    exact ⟨start'', u', run.trans rest⟩

/-! ## `READ` on the train -/

/-- R133: the start signal is answered at once. -/
theorem idealRun_start_signal {d : Decoder} {tau : Nat} (hl : s.cfg.legal = true) (hp : d.phase = .bDirOut)
    (ms : List Move) (m : Nat) :
    idealRun w (m + 5) tau (s.awaiting ms d) = idealRun w m tau (s.awaiting [] d.signalled) := by
  exact (idealRun_ok hl (by simp [requestOf, hp]) rfl (Decoder.goOn_bDirOut hp s.cfg) ms (m + 4)).trans
    ((idealRun_ok (i := .setLevel .low) hl rfl rfl rfl [] (m + 3)).trans
    ((idealRun_ok (i := .delay s.cfg.holdUs) hl rfl rfl rfl [] (m + 2)).trans
    ((idealRun_ok (i := .setLevel .high) hl rfl rfl rfl [] (m + 1)).trans
    (idealRun_ok (i := .setDirection .input) hl rfl rfl rfl [] m))))

/-- R133, R134: `READ` from its first phase to the check. -/
theorem idealRun_read_to_check {d : Decoder} (hcfg : s.cfg = Config.default) (hp : d.phase = .bDirOut)
    (isRead : d.op = opRead) (ms : List Move) (m : Nat) :
    ∃ tau u, idealRun (refTrain f) (m + 88) 0 (s.awaiting ms d) =
      idealRun (refTrain f) m tau (s.awaiting [] (d.readToCheck f u)) := by
  have hl := legal_of_default hcfg
  have inBand : ackOk s.cfg (BitVec.ofNat 32 80) = true := by rw [hcfg]; decide
  let d0 := (d.signalled.setDur (BitVec.ofNat 32 30)).goto .ackLow
  let d1 := (d0.setDur (BitVec.ofNat 32 80)).goto .ackHigh
  let d2 := (d1.setDur (BitVec.ofNat 32 80)).clearRaw.goto .bitLow
  have start : (d.signalled.setDur (BitVec.ofNat 32 30)).afterOkDur s.cfg (BitVec.ofNat 32 30) = d0 :=
    (Decoder.afterOkDur_ackStart rfl s.cfg _).trans (Decoder.afterAckStart_read isRead)
  have low : (d0.setDur (BitVec.ofNat 32 80)).afterOkDur s.cfg (BitVec.ofNat 32 80) = d1 :=
    (Decoder.afterOkDur_ackLow rfl s.cfg _).trans (Decoder.afterAckLow_inBand inBand _)
  have high : (d1.setDur (BitVec.ofNat 32 80)).afterOkDur s.cfg (BitVec.ofNat 32 80) = d2 :=
    (Decoder.afterOkDur_ackHigh rfl s.cfg _).trans (Decoder.afterAckHigh_read inBand isRead)
  obtain ⟨x, rest, hx⟩ := trainFrom_cons f 0 40
  have train : (refTrain f).From 0 ((.high, 30) :: (.low, 80) :: (.high, 80) :: trainFrom f 0 40) := fun l tau _ => by
    rw [refTrain_eq]
  rw [hx] at train
  have bits : (refTrain f).From (0 + 30 + 80 + 80) (trainFrom f 0 40) := hx ▸ train.skip.skip.skip
  obtain ⟨tau, u, sampling⟩ := idealRun_sample_from hcfg (sampling_of_clearRaw _ f) rfl bits [] m
  have check : d2.sampled f u = d.readToCheck f u := if_pos isRead
  refine ⟨tau, u, check ▸ ?_⟩
  calc idealRun (refTrain f) (m + 88) 0 (s.awaiting ms d)
      = idealRun (refTrain f) (m + 83) 0 (s.awaiting [] d.signalled) := idealRun_start_signal hl hp ms (m + 83)
    _ = idealRun (refTrain f) (m + 82) (0 + 30) (s.awaiting [] d0) :=
        idealRun_wait hl rfl train (by decide) (by decide) (by rw [hcfg]; decide) start [] (m + 82)
    _ = idealRun (refTrain f) (m + 81) (0 + 30 + 80) (s.awaiting [] d1) :=
        idealRun_wait hl rfl train.skip (by decide) (by decide) (by rw [hcfg]; decide) low [] (m + 81)
    _ = idealRun (refTrain f) (m + 80) (0 + 30 + 80 + 80) (s.awaiting [] d2) :=
        idealRun_wait hl rfl train.skip.skip (by decide) (by decide) (by rw [hcfg]; decide) high [] (m + 80)
    _ = idealRun (refTrain f) m tau (s.awaiting [] (d2.sampled f u)) := sampling

end Train

/-- Settles O52: `READ` reaches the check with the train's frame, and the check step has two outcomes. -/
theorem readOnTheReferenceTrain : Obligations.ReadOnTheReferenceTrain := by
  intro s a f hcfg hb accepted
  have hl := legal_of_default hcfg
  let d := s.dec.accept (encode .read) .bDirOut
  obtain rfl : s.awaiting s.script d = a := Host.Outcome.next.inj ((command_idle hb d).symm.trans accepted)
  obtain ⟨tau, u, toCheck⟩ := idealRun_read_to_check (f := f) (d := d) hcfg rfl (by decide : cmdOp (encode .read) = opRead)
    s.script 1
  have checked : idealRun (refTrain f) 1 tau (s.awaiting [] (d.readToCheck f u)) =
      .next (s.awaiting [] (d.readToCheck f u).validate) :=
    idealRun_move (m := .internal) rfl (step_awaiting_check hl rfl []) 0
  refine ⟨_, toCheck.trans checked, ?_⟩
  rw [State.awaiting_dec]
  by_cases passes : frameSum f = f[4]
  · rw [Decoder.validate_passed (d := d.readToCheck f u) passes]
    exact ⟨rfl, rfl, rfl, fun _ => ⟨rfl, rfl, rfl⟩, fun fails => absurd passes fails⟩
  · rw [Decoder.validate_failed (d := d.readToCheck f u) passes]
    exact ⟨rfl, rfl, rfl, fun passed => absurd passed passes, fun _ => ⟨rfl, rfl, rfl, rfl, rfl, rfl⟩⟩

end Sys2Proof.Machine
